-- ==== Sys2Proof/Word.lean ====
section
/-! DEFINITION. Word.lean: the word types, and a table keyed by natural numbers. -/

namespace Sys2Proof

/-- One byte (R5). -/
abbrev Byte := BitVec 8

/-- A run of bytes, lowest address first (R5). -/
abbrev Bytes := List Byte

/-- A finite table: pairs of a key and a value, kept with strictly rising keys. -/
abbrev Tab (α : Type) := List (Nat × α)

end Sys2Proof
end

