-- ==== Sys2Proof/Syntax.lean ====
section
/-! DEFINITION. Syntax.lean: the commands of the block, one constructor for each row of the opcode table. -/

namespace Sys2Proof

/-- A command that the module fetches from a submission queue: the queue pair, the 128 bytes of the entry
(R417), and the bytes that a DMA read of its input buffer returns (R418). -/
structure HostCmd where
  qp : Nat
  entry : Bytes
  data : Bytes
  deriving DecidableEq, Repr

/-- A cluster: 16 times the compute-die number, plus the cluster number. -/
abbrev ClusterId := Nat

/-- Issue of a unit instruction by a sequencer: the cluster, and the common fields SIGEN and SEM (R228). -/
structure Issue where
  cl : ClusterId
  sigen : Bool
  sem : Nat
  deriving DecidableEq, Repr

/-- Fields of SOP (Table Control instruction fields); FN is the row's own. -/
structure SopF where
  dst : Nat
  a : Nat
  b : Nat
  immsel : Bool
  imm : Nat
  deriving DecidableEq, Repr

/-- Fields of SIGNAL. -/
structure SignalF where
  tsem : Nat
  remote : Bool
  die : Nat
  cluster : Nat
  count : Nat
  deriving DecidableEq, Repr

/-- Fields of the MM family (Table MM-family fields). -/
structure MmF where
  array : Nat
  stream : Bool
  keep : Bool
  vm1 : Nat
  dm1 : Nat
  chain : Nat
  sdesc : Nat
  sreg : Nat
  xdesc : Nat
  xreg : Nat
  osen : Bool
  osdesc : Nat
  osreg : Nat
  deriving DecidableEq, Repr

/-- Fields of the ACC family (Table ACC-family fields). -/
structure AccF where
  array : Nat
  stream : Bool
  base : Nat
  cbase : Nat
  depth : Nat
  pair : Bool
  corr : Bool
  deriving DecidableEq, Repr

/-- Fields of DRAIN and GDRAIN (Table Drain fields). -/
structure DrainF where
  array : Nat
  gsrc : Bool
  chain : Nat
  oslot : Nat
  oen : Bool
  cen : Bool
  sven : Bool
  qen : Bool
  gmode : Nat
  men : Bool
  vm1 : Nat
  ddesc : Nat
  dreg : Nat
  svdesc : Nat
  svreg : Nat
  mdesc : Nat
  mreg : Nat
  qreg : Nat
  greg : Nat
  opidx : Nat
  opreg : Nat
  gsdesc : Nat
  gsreg : Nat
  deriving DecidableEq, Repr

/-- Fields of VEC (Table VEC fields); FN is the row's own. -/
structure VecF where
  nowait : Bool
  vd : Nat
  va : Nat
  vb : Nat
  vc : Nat
  bscal : Bool
  men : Bool
  mask : Nat
  prec : Bool
  opa : Nat × Nat
  opb : Nat × Nat
  opc : Nat × Nat
  opd : Nat × Nat
  ope : Nat × Nat
  qreg : Nat
  lreg : Nat
  cat : Nat
  preg : Nat
  deriving DecidableEq, Repr

/-- Fields of MOV (Table MOV fields); KIND is the row's own. -/
structure MovF where
  nowait : Bool
  mover : Nat
  trans : Bool
  sdesc : Nat
  sreg : Nat
  ddesc : Nat
  dreg : Nat
  ereg : Nat
  areg : Nat
  deriving DecidableEq, Repr

/-- Where a register lies: in BAR0 (an offset of Table BAR0 map) or in the package address space (R15). -/
inductive RegSpace where
  | bar0
  | package
  deriving DecidableEq, Repr

/-- A frame received on a peer port (R327): the port is 2n for port A of LDn and 2n + 1 for port B; the
320 bytes are the header and the body. -/
structure FrameIn where
  port : Nat
  bytes : Bytes
  deriving DecidableEq, Repr

/-- A read of a die's ERR_DIE register (R405, R412): `width` bytes at `offset` in it. -/
structure ErrDieAccess where
  die : Nat
  offset : Nat
  width : Nat
  deriving DecidableEq, Repr

/-- A peer port that trains (R521), and whether its cable leads to a port of the same kind (R522). -/
structure PortLink where
  port : Nat
  alike : Bool
  deriving DecidableEq, Repr

/-- What a scrub read finds on a line (R484, R487). -/
inductive ScrubFound where
  | good
  | transient
  | persistent
  | poisoned
  deriving DecidableEq, Repr

/-- A namespace of an NVM Express controller (R438): its identifier, LBA data size in bytes, size in
blocks, metadata bytes, and whether end-to-end protection is enabled. -/
structure NvmeNamespace where
  nsid : Nat
  lba : Nat
  blocks : Nat
  metadata : Nat
  protection : Bool
  deriving DecidableEq, Repr

/-- A controller that enumeration finds (R438): the I/O queue pairs it grants and its namespaces. -/
structure NvmeController where
  granted : Nat
  namespaces : List NvmeNamespace
  deriving DecidableEq, Repr

/-- Who sends an MSI-X message (R412). -/
inductive MsixSource where
  | queuePair (qp : Nat)
  | moduleEvent
  deriving DecidableEq, Repr

/-- The commands of the block. -/
inductive Instr where
  /-- IDENTIFY (R423). -/
  | identify (c : HostCmd)
  /-- OPEN_SESSION (R451). -/
  | openSession (c : HostCmd)
  /-- AUTH (R452). -/
  | auth (c : HostCmd)
  /-- CLOSE_SESSION (R425). -/
  | closeSession (c : HostCmd)
  /-- RESET (R500). -/
  | reset (c : HostCmd)
  /-- ATTEST (R459). -/
  | attest (c : HostCmd)
  /-- MODEL_LOAD (R449). -/
  | modelLoad (c : HostCmd)
  /-- MODEL_UNLOAD (R435). -/
  | modelUnload (c : HostCmd)
  /-- RIG_STAGE (R387). -/
  | rigStage (c : HostCmd)
  /-- STAGE_QUIESCE (R384). -/
  | stageQuiesce (c : HostCmd)
  /-- STAGE_RELEASE (R386). -/
  | stageRelease (c : HostCmd)
  /-- COSTUME_REGISTER (R269). -/
  | costumeRegister (c : HostCmd)
  /-- COSTUME_RETIRE (R285). -/
  | costumeRetire (c : HostCmd)
  /-- COSTUME_PREFETCH (R282). -/
  | costumePrefetch (c : HostCmd)
  /-- COSTUME_PIN (R281). -/
  | costumePin (c : HostCmd)
  /-- COSTUME_AUDIT (R289). -/
  | costumeAudit (c : HostCmd)
  /-- SERVE_SUBMIT (R426). -/
  | serveSubmit (c : HostCmd)
  /-- SERVE_CANCEL (R430). -/
  | serveCancel (c : HostCmd)
  /-- TUNE_OPEN (R292). -/
  | tuneOpen (c : HostCmd)
  /-- TUNE_FEED (R431). -/
  | tuneFeed (c : HostCmd)
  /-- TUNE_CHECKPOINT (R315). -/
  | tuneCheckpoint (c : HostCmd)
  /-- TUNE_CLOSE (R320). -/
  | tuneClose (c : HostCmd)
  /-- CAROUSEL_JOIN (R332). -/
  | carouselJoin (c : HostCmd)
  /-- CAROUSEL_LEAVE (R336). -/
  | carouselLeave (c : HostCmd)
  /-- SCRUB_PASS (R486). -/
  | scrubPass (c : HostCmd)
  /-- ERRLOG_READ (R481). -/
  | errlogRead (c : HostCmd)
  /-- TELEMETRY_READ (R432). -/
  | telemetryRead (c : HostCmd)
  /-- FW_STAGE (R434). -/
  | fwStage (c : HostCmd)
  /-- FW_ACTIVATE (R501). -/
  | fwActivate (c : HostCmd)
  /-- LIFECYCLE_SET (R436). -/
  | lifecycleSet (c : HostCmd)
  /-- CALIBRATION_WRITE (R508). -/
  | calibrationWrite (c : HostCmd)
  /-- LIFECYCLE_TRANSITION (R462). -/
  | lifecycleTransition
  /-- SQ_TAIL (R411). -/
  | sqTail (qp : Nat) (value : Nat)
  /-- CQ_HEAD (R411). -/
  | cqHead (qp : Nat) (value : Nat)
  /-- QP_ENABLE (R410). -/
  | qpEnable (qp : Nat) (value : Nat)
  /-- QP_DISABLE (R416). -/
  | qpDisable (qp : Nat) (value : Nat)
  /-- QP_DISABLED (R416). -/
  | qpDisabled (qp : Nat)
  /-- BAR0_UNSUPPORTED_REQUEST (R405). -/
  | bar0UnsupportedRequest (write : Bool) (addr : Nat) (size : Nat)
  /-- REGISTER_WRITE (R8). -/
  | registerWrite (space : RegSpace) (offset : Nat) (width : Nat) (value : Nat)
  /-- DROP_COUNTS_READ (R218). -/
  | dropCountsRead (die : Nat)
  /-- SLOW_COUNTS_READ (R218). -/
  | slowCountsRead (die : Nat)
  /-- UESTAT_READ (R179). -/
  | uestatRead (die : Nat)
  /-- ERR_DIE_READ (R412, R405): of `width` bytes at `offset` in the register. -/
  | errDieRead (read : ErrDieAccess)
  /-- CHAIN_RECORD_WRITE (R128). -/
  | chainRecordWrite (cl : ClusterId) (array : Nat) (records : (List (Nat × Nat)))
  /-- CLIP_STATISTIC_CLEAR (R77). -/
  | clipStatisticClear (addr : Nat)
  /-- START (R221). -/
  | start (cl : ClusterId) (entry : Nat)
  /-- ABORT (R251). -/
  | abort (stage : Nat)
  /-- NOP (R228). -/
  | nop (cl : ClusterId)
  /-- HALT (R223). -/
  | halt (cl : ClusterId)
  /-- WAIT (R247). -/
  | wait (cl : ClusterId) (tsem : Nat) (count : Nat)
  /-- SIGNAL (R248). -/
  | signal (cl : ClusterId) (f : SignalF)
  /-- BARRIER (R250). -/
  | barrier (cl : ClusterId) (scope : Nat) (id : Nat)
  /-- SLI (R228). -/
  | sli (cl : ClusterId) (dst : Nat) (imm : Nat)
  /-- SOP_ADD (R232). -/
  | sopAdd (cl : ClusterId) (f : SopF)
  /-- SOP_SUB (R232). -/
  | sopSub (cl : ClusterId) (f : SopF)
  /-- SOP_MUL (R232). -/
  | sopMul (cl : ClusterId) (f : SopF)
  /-- SOP_AND (R232). -/
  | sopAnd (cl : ClusterId) (f : SopF)
  /-- SOP_OR (R232). -/
  | sopOr (cl : ClusterId) (f : SopF)
  /-- SOP_XOR (R232). -/
  | sopXor (cl : ClusterId) (f : SopF)
  /-- SOP_SHL (R232). -/
  | sopShl (cl : ClusterId) (f : SopF)
  /-- SOP_SHR (R232). -/
  | sopShr (cl : ClusterId) (f : SopF)
  /-- SOP_SAR (R232). -/
  | sopSar (cl : ClusterId) (f : SopF)
  /-- SOP_MIN (R232). -/
  | sopMin (cl : ClusterId) (f : SopF)
  /-- SOP_MAX (R232). -/
  | sopMax (cl : ClusterId) (f : SopF)
  /-- SOP_MINU (R232). -/
  | sopMinu (cl : ClusterId) (f : SopF)
  /-- SOP_MAXU (R232). -/
  | sopMaxu (cl : ClusterId) (f : SopF)
  /-- BR (R233). -/
  | br (cl : ClusterId) (cond : Nat) (a : Nat) (b : Nat) (target : Nat)
  /-- DLOAD (R234). -/
  | dload (cl : ClusterId) (slot : Nat) (areg : Nat) (cnt : Nat)
  /-- MM (R102). -/
  | mm (i : Issue) (f : MmF)
  /-- MM_T (R103). -/
  | mmT (i : Issue) (f : MmF)
  /-- MM_W (R104). -/
  | mmW (i : Issue) (f : MmF)
  /-- STATIONARY_LOAD_COMPLETE (R97). -/
  | stationaryLoadComplete (cl : ClusterId) (array : Nat)
  /-- CHUNK_SUM_INSERT (R129). -/
  | chunkSumInsert (cl : ClusterId) (array : Nat)
  /-- ACC_OPEN (R126). -/
  | accOpen (i : Issue) (f : AccF)
  /-- ACC_MERGE (R132). -/
  | accMerge (i : Issue) (f : AccF)
  /-- ACC_RELEASE (R146). -/
  | accRelease (i : Issue) (f : AccF)
  /-- DRAIN (R113). -/
  | drain (i : Issue) (f : DrainF)
  /-- GDRAIN (R242). -/
  | gdrain (i : Issue) (f : DrainF)
  /-- MOV_COPY (R207). -/
  | movCopy (i : Issue) (f : MovF)
  /-- MOV_CONVERT (R207). -/
  | movConvert (i : Issue) (f : MovF)
  /-- MOV_QUANT (R207). -/
  | movQuant (i : Issue) (f : MovF)
  /-- MOV_GATHER (R211). -/
  | movGather (i : Issue) (f : MovF)
  /-- VEC_ADD (R243). -/
  | vecAdd (i : Issue) (f : VecF)
  /-- VEC_SUB (R243). -/
  | vecSub (i : Issue) (f : VecF)
  /-- VEC_MUL (R243). -/
  | vecMul (i : Issue) (f : VecF)
  /-- FMA (R243). -/
  | fma (i : Issue) (f : VecF)
  /-- VEC_MIN (R243). -/
  | vecMin (i : Issue) (f : VecF)
  /-- VEC_MAX (R243). -/
  | vecMax (i : Issue) (f : VecF)
  /-- NEG (R243). -/
  | neg (i : Issue) (f : VecF)
  /-- ABS (R243). -/
  | abs (i : Issue) (f : VecF)
  /-- CMPGT (R243). -/
  | cmpgt (i : Issue) (f : VecF)
  /-- CMPGE (R243). -/
  | cmpge (i : Issue) (f : VecF)
  /-- CMPEQ (R243). -/
  | cmpeq (i : Issue) (f : VecF)
  /-- SEL (R243). -/
  | sel (i : Issue) (f : VecF)
  /-- CVTD (R243). -/
  | cvtd (i : Issue) (f : VecF)
  /-- CVTS (R243). -/
  | cvts (i : Issue) (f : VecF)
  /-- DIV (R243). -/
  | div (i : Issue) (f : VecF)
  /-- SQRT (R243). -/
  | sqrt (i : Issue) (f : VecF)
  /-- EXP2 (R157). -/
  | exp2 (i : Issue) (f : VecF)
  /-- LOG2 (R157). -/
  | log2 (i : Issue) (f : VecF)
  /-- RCP (R157). -/
  | rcp (i : Issue) (f : VecF)
  /-- RSQ (R157). -/
  | rsq (i : Issue) (f : VecF)
  /-- SIG (R157). -/
  | sig (i : Issue) (f : VecF)
  /-- TANH (R157). -/
  | tanh (i : Issue) (f : VecF)
  /-- LD (R155). -/
  | ld (i : Issue) (f : VecF)
  /-- ST (R533). -/
  | st (i : Issue) (f : VecF)
  /-- STQ (R156). -/
  | stq (i : Issue) (f : VecF)
  /-- ROWSUM (R158). -/
  | rowsum (i : Issue) (f : VecF)
  /-- ROWMAX (R159). -/
  | rowmax (i : Issue) (f : VecF)
  /-- ROWMIN (R159). -/
  | rowmin (i : Issue) (f : VecF)
  /-- ACT (R160). -/
  | act (i : Issue) (f : VecF)
  /-- ACTB (R160). -/
  | actb (i : Issue) (f : VecF)
  /-- OSUM (R92). -/
  | osum (i : Issue) (f : VecF)
  /-- OSUM_T (R93). -/
  | osumT (i : Issue) (f : VecF)
  /-- SETRM (R153). -/
  | setrm (i : Issue) (f : VecF)
  /-- INSTRUCTION_COMPLETION (R227). -/
  | instructionCompletion (cl : ClusterId) (unit : Nat)
  /-- REMOTE_SIGNAL_ARRIVAL (R249). -/
  | remoteSignalArrival (index : Nat)
  /-- SIGNAL_ACK_ARRIVAL (R249). -/
  | signalAckArrival (index : Nat)
  /-- STALE_TRANSACTION (R393). -/
  | staleTransaction (die : Nat) (stage : Nat) (epoch : Nat)
  /-- STEP_START (R278). -/
  | stepStart (stage : Nat)
  /-- STEP_COMPLETE (R223). -/
  | stepComplete (stage : Nat)
  /-- STEP_REPLAY (R477). -/
  | stepReplay (stage : Nat)
  /-- CADENCE_PERIOD_BOUNDARY (R466). -/
  | cadencePeriodBoundary (stage : Nat)
  /-- QUIESCE_TIMEOUT (R384). -/
  | quiesceTimeout (stage : Nat)
  /-- TUNING_PASS_START (R296). -/
  | tuningPassStart (job : Nat)
  /-- TUNING_PASS_COMPLETE (R296). -/
  | tuningPassComplete (job : Nat)
  /-- WINDOW_END (R313). -/
  | windowEnd (job : Nat)
  /-- JOB_ROTATION (R291). -/
  | jobRotation (job : Nat)
  /-- TUNING_ROLLBACK (R318). -/
  | tuningRollback (job : Nat)
  /-- SHARD_UPDATE (R175). -/
  | shardUpdate (job : Nat) (die : Nat)
  /-- PUBLICATION_SWITCH (R181). -/
  | publicationSwitch (job : Nat)
  /-- COSTUME_LOAD (R271). -/
  | costumeLoad (stage : Nat) (handle : Nat)
  /-- COSTUME_LOAD_COMPLETE (R279). -/
  | costumeLoadComplete (stage : Nat) (handle : Nat)
  /-- COSTUME_RELOCATION (R270). -/
  | costumeRelocation (stage : Nat) (handle : Nat) (page : Nat)
  /-- PAGE_SCRUB_COMPLETE (R279). -/
  | pageScrubComplete (stage : Nat) (handle : Nat)
  /-- CACHE_EVICTION (R273). -/
  | cacheEviction
  /-- RETIRE_COMPLETE (R286). -/
  | retireComplete (handle : Nat)
  /-- BLOCK_FINAL (R343). -/
  | blockFinal (job : Nat) (block : Nat)
  /-- DEADLINE_EXPIRY (R341). -/
  | deadlineExpiry (job : Nat)
  /-- HOLD_EXPIRY (R347). -/
  | holdExpiry (job : Nat) (block : Nat)
  /-- VERDICT_TIMEOUT (R350). -/
  | verdictTimeout (job : Nat)
  /-- PARAM_TIMEOUT (R353). -/
  | paramTimeout (job : Nat) (block : Nat)
  /-- JOIN_TIMEOUT (R334). -/
  | joinTimeout (job : Nat)
  /-- IDLE (R328). -/
  | idle (f : FrameIn)
  /-- PIPE (R374). -/
  | pipe (f : FrameIn)
  /-- OPEN (R340). -/
  | openFrame (f : FrameIn)
  /-- FORM (R334). -/
  | form (f : FrameIn)
  /-- REFUSE (R334). -/
  | refuse (f : FrameIn)
  /-- LEAVE (R336). -/
  | leave (f : FrameIn)
  /-- VERDICT (R349). -/
  | verdict (f : FrameIn)
  /-- REDUCE (R345). -/
  | reduce (f : FrameIn)
  /-- PARAM (R353). -/
  | param (f : FrameIn)
  /-- RESERVED_FRAME (R329). -/
  | reservedFrame (f : FrameIn)
  /-- PORT_DOWN (R324). -/
  | portDown (port : Nat)
  /-- PORT_TRAINED (R521, R522). -/
  | portTrained (link : PortLink)
  /-- REFETCH (R475). -/
  | refetch (addr : Nat)
  /-- INSTRUCTION_REPLAY (R476). -/
  | instructionReplay (cl : ClusterId) (unit : Nat) (ok : Bool)
  /-- BACKGROUND_SCRUB_READ (R484). -/
  | backgroundScrubRead (stage : Nat) (addr : Nat) (found : ScrubFound)
  /-- FENCE_PROPOSAL (R489). -/
  | fenceProposal (die : Nat) (cause : Nat)
  /-- DIE_FENCE (R490). -/
  | dieFence (die : Nat)
  /-- SUPPLY_VALID_ASSERT (R493). -/
  | supplyValidAssert
  /-- SUPPLY_VALID_DEASSERT (R499). -/
  | supplyValidDeassert
  /-- HARDWARE_WIPE_COMPLETE (R493). -/
  | hardwareWipeComplete
  /-- DEFAULT_IMAGE_RIG (R494). -/
  | defaultImageRig
  /-- MOD_EN_HIGH (R516). -/
  | modEnHigh (lowForOneSecond : Bool)
  /-- MOD_EN_LOW (R516). -/
  | modEnLow
  /-- PERST_ASSERT (R500). -/
  | perstAssert
  /-- PERST_DEASSERT (R407). -/
  | perstDeassert
  /-- FUNCTION_RESET (R408). -/
  | functionReset (kind : Nat)
  /-- STORAGE_ENUMERATION (R438). -/
  | storageEnumeration (controllers : (List NvmeController))
  /-- NVME_COMPLETION (R439). -/
  | nvmeCompletion (id : Nat) (status : Nat) (data : Bytes)
  /-- NVME_TIMEOUT (R439). -/
  | nvmeTimeout (id : Nat)
  /-- SESSION_EXPIRY (R424). -/
  | sessionExpiry (qp : Nat)
  /-- FW_SWITCH_TIMEOUT (R501). -/
  | fwSwitchTimeout
  /-- MSIX_MESSAGE (R412). -/
  | msixMessage (source : MsixSource)
  /-- TELEMETRY_UPDATE (R413). -/
  | telemetryUpdate (inputMv : Nat) (inputMw : Nat) (powerW : (List Nat))
  /-- THERMAL_SAMPLE (R525). -/
  | thermalSample (readings : (List Int))
  /-- THROTTLE_EVALUATION (R526). -/
  | throttleEvaluation (inputMw : Nat)
  /-- THERMAL_TRIP (R528). -/
  | thermalTrip (sensor : Nat)
  /-- ENROL (R444). -/
  | enrol (rec : Bytes)
  /-- REPLACE (R444). -/
  | replace (rec : Bytes)
  /-- REMOVE (R444). -/
  | remove (rec : Bytes)
  /-- MODEL_KEY (R444). -/
  | modelKey (rec : Bytes)
  /-- MCTP_CONTROL (R518). -/
  | mctpControl (msg : Bytes)
  /-- PLDM_SENSOR_READ (R519). -/
  | pldmSensorRead (sensor : Nat)
  /-- PLDM_FRU_READ (R518). -/
  | pldmFruRead
  /-- RECEIVER_LOCK_CHANGE (R324). -/
  | receiverLockChange (port : Nat) (locked : Bool)
  /-- FRAME_PARITY_FAILURE (R326). -/
  | frameParityFailure (port : Nat)
  /-- HOST_DMA_READ_FAILURE (R421). -/
  | hostDmaReadFailure (entry : Bool) (c : HostCmd)
  /-- NVME_CONTROLLER_FATAL (R439). -/
  | nvmeControllerFatal (controller : Nat)
  /-- CONFIGURATION_REQUEST (R407). -/
  | configurationRequest (write : Bool) (offset : Nat) (size : Nat) (value : Nat)
  /-- RIG_COMPLETE (R387). -/
  | rigComplete
  deriving DecidableEq, Repr

end Sys2Proof
end

