-- ==== Sys2Proof/WellFormed.lean ====
section
/-! DEFINITION. WellFormed.lean: the checks on a command as syntax: every operand lies in the range that the
spec gives its field. -/

namespace Sys2Proof

def HostCmd.wf (c : HostCmd) : Bool := c.qp < 1024 && c.entry.length == 128
def Issue.wf (i : Issue) : Bool := i.cl < 1024 && i.sem < 128
def SopF.wf (f : SopF) : Bool := f.dst < 32 && f.a < 32 && f.b < 32 && f.imm < 2 ^ 32
def SignalF.wf (f : SignalF) : Bool := f.tsem < 128 && f.die < 64 && f.cluster < 16 && 0 < f.count && f.count < 65536
def MmF.wf (f : MmF) : Bool :=
  f.array < 3 && f.vm1 < 8 && f.dm1 < 8 && f.chain < 64 && f.sdesc < 64 && f.sreg < 32 && f.xdesc < 64 &&
  f.xreg < 32 && f.osdesc < 64 && f.osreg < 32
def AccF.wf (f : AccF) : Bool := f.array < 3 && f.base < 64 && f.cbase < 64 && f.depth < 8
def DrainF.wf (f : DrainF) : Bool :=
  f.array < 3 && f.chain < 64 && f.oslot < 64 && f.gmode < 2 && f.vm1 < 8 && f.ddesc < 64 && f.dreg < 32 &&
  f.svdesc < 64 && f.svreg < 32 && f.mdesc < 64 && f.mreg < 32 && f.qreg < 32 && f.greg < 32 && f.opidx < 4096 &&
  f.opreg < 32 && f.gsdesc < 64 && f.gsreg < 32
def slotReg (p : Nat × Nat) : Bool := p.1 < 64 && p.2 < 32
def VecF.wf (f : VecF) : Bool :=
  f.vd < 32 && f.va < 32 && f.vb < 32 && f.vc < 32 && f.mask < 8 && slotReg f.opa && slotReg f.opb &&
  slotReg f.opc && slotReg f.opd && slotReg f.ope && f.qreg < 32 && f.lreg < 32 && f.cat < 10 && f.preg < 32
def MovF.wf (f : MovF) : Bool :=
  f.mover < 2 && f.sdesc < 64 && f.sreg < 32 && f.ddesc < 64 && f.dreg < 32 && f.ereg < 32 && f.areg < 32
def FrameIn.wf (f : FrameIn) : Bool := f.port < 16 && f.bytes.length == 320

/-- A command is well formed when each operand lies in its field. -/
def Instr.wf : Instr → Bool
  | .identify c => c.wf
  | .openSession c => c.wf
  | .auth c => c.wf
  | .closeSession c => c.wf
  | .reset c => c.wf
  | .attest c => c.wf
  | .modelLoad c => c.wf
  | .modelUnload c => c.wf
  | .rigStage c => c.wf
  | .stageQuiesce c => c.wf
  | .stageRelease c => c.wf
  | .costumeRegister c => c.wf
  | .costumeRetire c => c.wf
  | .costumePrefetch c => c.wf
  | .costumePin c => c.wf
  | .costumeAudit c => c.wf
  | .serveSubmit c => c.wf
  | .serveCancel c => c.wf
  | .tuneOpen c => c.wf
  | .tuneFeed c => c.wf
  | .tuneCheckpoint c => c.wf
  | .tuneClose c => c.wf
  | .carouselJoin c => c.wf
  | .carouselLeave c => c.wf
  | .scrubPass c => c.wf
  | .errlogRead c => c.wf
  | .telemetryRead c => c.wf
  | .fwStage c => c.wf
  | .fwActivate c => c.wf
  | .lifecycleSet c => c.wf
  | .calibrationWrite c => c.wf
  | .lifecycleTransition => true
  | .sqTail qp value => qp < 1024 && value < 2 ^ 64
  | .cqHead qp value => qp < 1024 && value < 2 ^ 64
  | .qpEnable qp value => qp < 1024 && value < 2 ^ 64
  | .qpDisable qp value => qp < 1024 && value < 2 ^ 64
  | .qpDisabled qp => qp < 1024
  | .bar0UnsupportedRequest _ _ _ => true
  | .registerWrite _ _ width value => (width == 4 || width == 8) && value < 2 ^ 64
  | .dropCountsRead die => die < 100
  | .slowCountsRead die => die < 100
  | .uestatRead die => die < 100
  | .errDieRead r => r.die < 100 && ((r.offset = 0 && r.width = 8) || ((r.offset = 0 || r.offset = 4) && r.width = 4))
  | .chainRecordWrite cl array _ => cl < 1024 && array < 3
  | .clipStatisticClear addr => addr < 2 ^ 40
  | .start cl entry => cl < 1024 && entry < 16
  | .abort stage => stage < 16
  | .nop cl => cl < 1024
  | .halt cl => cl < 1024
  | .wait cl tsem count => cl < 1024 && tsem < 128 && 0 < count && count < 65536
  | .signal cl f => cl < 1024 && f.wf
  | .barrier cl scope id => cl < 1024 && scope < 3 && id < 8
  | .sli cl dst imm => cl < 1024 && dst < 32 && imm < 2 ^ 64
  | .sopAdd cl f => cl < 1024 && f.wf
  | .sopSub cl f => cl < 1024 && f.wf
  | .sopMul cl f => cl < 1024 && f.wf
  | .sopAnd cl f => cl < 1024 && f.wf
  | .sopOr cl f => cl < 1024 && f.wf
  | .sopXor cl f => cl < 1024 && f.wf
  | .sopShl cl f => cl < 1024 && f.wf
  | .sopShr cl f => cl < 1024 && f.wf
  | .sopSar cl f => cl < 1024 && f.wf
  | .sopMin cl f => cl < 1024 && f.wf
  | .sopMax cl f => cl < 1024 && f.wf
  | .sopMinu cl f => cl < 1024 && f.wf
  | .sopMaxu cl f => cl < 1024 && f.wf
  | .br cl cond a b target => cl < 1024 && cond < 7 && a < 32 && b < 32 && target < 4096
  | .dload cl slot areg cnt => cl < 1024 && slot < 64 && areg < 32 && cnt < 64
  | .mm i f => i.wf && f.wf
  | .mmT i f => i.wf && f.wf
  | .mmW i f => i.wf && f.wf
  | .stationaryLoadComplete cl array => cl < 1024 && array < 3
  | .chunkSumInsert cl array => cl < 1024 && array < 3
  | .accOpen i f => i.wf && f.wf
  | .accMerge i f => i.wf && f.wf
  | .accRelease i f => i.wf && f.wf
  | .drain i f => i.wf && f.wf
  | .gdrain i f => i.wf && f.wf
  | .movCopy i f => i.wf && f.wf
  | .movConvert i f => i.wf && f.wf
  | .movQuant i f => i.wf && f.wf
  | .movGather i f => i.wf && f.wf
  | .vecAdd i f => i.wf && f.wf
  | .vecSub i f => i.wf && f.wf
  | .vecMul i f => i.wf && f.wf
  | .fma i f => i.wf && f.wf
  | .vecMin i f => i.wf && f.wf
  | .vecMax i f => i.wf && f.wf
  | .neg i f => i.wf && f.wf
  | .abs i f => i.wf && f.wf
  | .cmpgt i f => i.wf && f.wf
  | .cmpge i f => i.wf && f.wf
  | .cmpeq i f => i.wf && f.wf
  | .sel i f => i.wf && f.wf
  | .cvtd i f => i.wf && f.wf
  | .cvts i f => i.wf && f.wf
  | .div i f => i.wf && f.wf
  | .sqrt i f => i.wf && f.wf
  | .exp2 i f => i.wf && f.wf
  | .log2 i f => i.wf && f.wf
  | .rcp i f => i.wf && f.wf
  | .rsq i f => i.wf && f.wf
  | .sig i f => i.wf && f.wf
  | .tanh i f => i.wf && f.wf
  | .ld i f => i.wf && f.wf
  | .st i f => i.wf && f.wf
  | .stq i f => i.wf && f.wf
  | .rowsum i f => i.wf && f.wf
  | .rowmax i f => i.wf && f.wf
  | .rowmin i f => i.wf && f.wf
  | .act i f => i.wf && f.wf
  | .actb i f => i.wf && f.wf
  | .osum i f => i.wf && f.wf
  | .osumT i f => i.wf && f.wf
  | .setrm i f => i.wf && f.wf
  | .instructionCompletion cl unit => cl < 1024 && unit < 10
  | .remoteSignalArrival _ => true
  | .signalAckArrival _ => true
  | .staleTransaction die stage epoch => die < 100 && stage < 16 && epoch < 2 ^ 32
  | .stepStart stage => stage < 16
  | .stepComplete stage => stage < 16
  | .stepReplay stage => stage < 16
  | .cadencePeriodBoundary stage => stage < 16
  | .quiesceTimeout stage => stage < 16
  | .tuningPassStart job => job < 2 ^ 24
  | .tuningPassComplete job => job < 2 ^ 24
  | .windowEnd job => job < 2 ^ 24
  | .jobRotation job => job < 2 ^ 24
  | .tuningRollback job => job < 2 ^ 24
  | .shardUpdate job die => job < 2 ^ 24 && die < 100
  | .publicationSwitch job => job < 2 ^ 24
  | .costumeLoad stage handle => stage < 16 && handle < 2 ^ 32
  | .costumeLoadComplete stage handle => stage < 16 && handle < 2 ^ 32
  | .costumeRelocation stage handle _ => stage < 16 && handle < 2 ^ 32
  | .pageScrubComplete stage handle => stage < 16 && handle < 2 ^ 32
  | .cacheEviction => true
  | .retireComplete handle => handle < 2 ^ 32
  | .blockFinal job block => job < 2 ^ 24 && block < 2 ^ 24
  | .deadlineExpiry job => job < 2 ^ 24
  | .holdExpiry job block => job < 2 ^ 24 && block < 2 ^ 24
  | .verdictTimeout job => job < 2 ^ 24
  | .paramTimeout job block => job < 2 ^ 24 && block < 2 ^ 24
  | .joinTimeout job => job < 2 ^ 24
  | .idle f => f.wf
  | .pipe f => f.wf
  | .openFrame f => f.wf
  | .form f => f.wf
  | .refuse f => f.wf
  | .leave f => f.wf
  | .verdict f => f.wf
  | .reduce f => f.wf
  | .param f => f.wf
  | .reservedFrame f => f.wf
  | .portDown port => port < 16
  | .portTrained l => l.port < 16
  | .refetch addr => addr < 2 ^ 40
  | .instructionReplay cl unit _ => cl < 1024 && unit < 10
  | .backgroundScrubRead stage addr _ => stage < 16 && addr < 2 ^ 40
  | .fenceProposal die cause => die < 100 && 0 < cause && cause < 7
  | .dieFence die => die < 100
  | .supplyValidAssert => true
  | .supplyValidDeassert => true
  | .hardwareWipeComplete => true
  | .defaultImageRig => true
  | .modEnHigh _ => true
  | .modEnLow => true
  | .perstAssert => true
  | .perstDeassert => true
  | .functionReset kind => kind < 3
  | .storageEnumeration controllers => controllers.length <= 16
  | .nvmeCompletion _ _ _ => true
  | .nvmeTimeout _ => true
  | .sessionExpiry qp => qp < 1024
  | .fwSwitchTimeout => true
  | .msixMessage _ => true
  | .telemetryUpdate _ _ powerW => powerW.length == 4
  | .thermalSample readings => readings.length == 512
  | .throttleEvaluation _ => true
  | .thermalTrip sensor => sensor < 512
  | .enrol rec => rec.length == 432
  | .replace rec => rec.length == 432
  | .remove rec => rec.length == 432
  | .modelKey rec => rec.length == 432
  | .mctpControl _ => true
  | .pldmSensorRead sensor => sensor < 65536
  | .pldmFruRead => true
  | .receiverLockChange port _ => port < 16
  | .frameParityFailure port => port < 16
  | .hostDmaReadFailure _ c => c.wf
  | .nvmeControllerFatal controller => controller < 16
  | .configurationRequest _ offset size value => offset < 4096 && (size == 1 || size == 2 || size == 4) && value < 2 ^ 64
  | .rigComplete => true

end Sys2Proof
end

