-- ==== Sys2Proof/Config.lean ====
section
/-! DEFINITION. Config.lean: what a part fixes outside the spec, and the values the spec leaves open. Every
constant here is opaque, so nothing can be proved of its value. -/

namespace Sys2Proof.Config

/-- Bytes of the SMD's random number generator (R442, R451): draw number, then byte index.
DESIGN CHOICE, log 1: safe. -/
opaque rng : Nat → Nat → Byte

/-- What a staging byte reads after its granule was given a new key and before it is written (R387, R455,
R493): key generation, then package address. DESIGN CHOICE, log 1: safe. -/
opaque staging : Nat → Nat → Byte

/-- Sign and payload of a quiet NaN that an operation of a vector or update engine produces, where R27 and
IEEE 754 leave them open: a function of the operands. DESIGN CHOICE, log 1: safe. -/
opaque nanPayload : Nat → Nat → Nat → Nat

/-- A 32-bit value the spec does not state: draw number. DESIGN CHOICE, log 1: safe. -/
opaque free32 : Nat → BitVec 32

/-- What a module writes behind the end of a result in its last 16-byte unit (R454): draw number, byte. DESIGN
CHOICE, log 37: safe. -/
opaque resultPad : Nat → Nat → Byte

/-- SHA-384 of the SMD boot ROM (R459), byte by byte. Log 8. -/
opaque bootHash : Nat → Byte

/-- Length, then bytes, of the device certificate chain (R459, at most 2,048 bytes). Log 8. -/
opaque certLen : Fin 2049
opaque cert : Nat → Byte

/-- Vendor ID assigned to Plerima (R402). Log 8. -/
opaque vendorId : BitVec 16

/-- Time in ns from PERST# deassertion to the configuration-ready time, at most 1.0 s (R407). DESIGN CHOICE, log 17:
safe. -/
opaque cfgReadyTime : Fin 0x3B9ACA01

/-- Lanes and rate the host link trains to, which the host and its slot decide: draw number, then a place among the
widths 1 to 16 and the rates 2.5 to 64 GT/s (R402). DESIGN CHOICE, log 17: safe. -/
opaque hostLanes : Nat → Fin 5
opaque hostSpeed : Nat → Fin 6

/-- Free dwords of configuration space before a capability structure, by its place in the list: the manual does not say
where the structures stand (R403). Log 5: safe. -/
opaque capGap : Nat → Fin 9

/-- What configuration space reads where the PCI Express Base Specification and not the manual gives the
register: dword offset, draw number. Log 5. -/
opaque cfgFree : Nat → Nat → BitVec 32

/-- Sign and payload of the quiet NaN that an E8 NaN code stands for (R30, R53): the code. DESIGN CHOICE,
log 62: safe. -/
opaque e8Nan : Nat → Nat

/-- Whether a fused multiply-add of a zero, an infinity and a quiet NaN raises invalid, which IEEE 754 leaves to
the implementation (R27). DESIGN CHOICE, log 62: safe. -/
opaque fmaInvalid : Bool

/-- Staging channel of a package address, before reduction to the channels of the part (R14). DESIGN CHOICE,
log 63: safe. -/
opaque channelOf : Nat → Nat

/-- Receive space of a peer port per credit class, in frames, when the port comes up (R328). Log 12. -/
opaque portCredit : Nat → Nat

/-- Offset of the arrival line in the run of an OUT route, which the sender knows and no record states (R374,
R456): stage, first granule of the run. Log 13. -/
opaque outArrive : Nat → Nat → Nat

/-- An MCTP control answer that DSP0236 gives and the manual does not: draw number, byte. Log 5. -/
opaque mctpFree : Nat → Nat → Byte

end Sys2Proof.Config
end

