-- ==== Sys2Proof/Machine/State.lean ====
section
/-! DEFINITION. State.lean: everything the spec gives the module to hold, as plain data, and its value right
after a cold reset has begun. Registers are named as the spec names them. A `Tab` lists only the entries that
differ from the reset value of the thing it holds (the reading operation names that value). -/

namespace Sys2Proof.Machine

/-- Reasons for which a step stops with a fault. The spec reports every error of its own by a status, a log
entry or a register, so no command of the table raises one: `outside` is kept for a command the spec gives no
effect at all (R2). Raised by no meaning; safe. -/
inductive Fault where
  | outside
  deriving DecidableEq, Repr

/-- Reasons for which a step is refused. -/
inductive Refusal where
  /-- No meaning has been written for the command. Raised by an arm of `exec` that is not modelled; safe. -/
  | notModelled (mnemonic : String)
  deriving DecidableEq, Repr

/-- Bytes at addresses, in one canonical form: addresses rise strictly and no byte is 0 (R493: the wipe leaves
zeros, so an unlisted address of on-package memory reads as 0). -/
abbrev Memory := List Host.Cell

/-! ### The part -/

/-- The two parts of the family (Table Parts covered). -/
inductive Part where
  | lg100
  | lg052
  deriving DecidableEq, Repr

/-- Factory equalization of a peer-link lane: transmitter preset and receiver CTLE setting, each with its permitted range
(R506). -/
structure LaneFuse where
  preset : Nat
  presetMin : Nat
  presetMax : Nat
  ctle : Nat
  ctleMin : Nat
  ctleMax : Nat
  deriving DecidableEq, Repr

/-- What is fixed in a part: fuses, identity and the cables of its peer ports (Table Identity registers, R442, R506,
R522). -/
structure Device where
  part : Part
  siliconRev : Nat
  serial : Nat
  vendorX : Nat                  -- vendor root key, P-384 point
  vendorY : Nat
  identityKey : Nat              -- private device identity key, which the SMD derives from the fused seed (R442)
  seedReadable : Bool            -- the fused seed, and with it the identity and store keys (RETIRED destroys them, R461)
  minSvn : List Nat              -- fused minimum SVN of control and scheduler firmware
  trims : List Int               -- factory core-voltage trim by die index, in mV (R506)
  lanes : List LaneFuse          -- factory equalization by peer-link lane (R506)
  seed : BitVec 256              -- fused identity seed; `identityKey` and `storeKey` are what the SMD derives from it (R442, R506)
  storeKey : Bytes               -- AES-256 key of the protected store in carrier flash, gone in RETIRED (R442)
  sensorOffset : List Int        -- fused correction of each thermal sensor's readings
  freqBins : List Nat            -- fused frequency bin of each quadrant, in MHz
  repairMaps : List Bytes        -- fused SRAM repair maps, invisible to every address
  flashImage : Bytes             -- default rigging image in carrier flash (R391)
  deriving DecidableEq, Repr

/-! ### Power, clocks, thermal -/

/-- What the module is doing between SUPPLY_VALID and READY (R493, R500, R462). -/
inductive Phase where
  | off            -- SUPPLY_VALID low: every die in reset (R499)
  | coldWipe       -- cold reset until the hardware wipe completes
  | warmWipe       -- warm reset until the hardware wipe completes
  | lifeWipe       -- life-cycle transition until its wipe completes (R462)
  | running
  deriving DecidableEq, Repr

/-- Power pins, resets and clocks (R496, R513, R515, R528). -/
structure Power where
  phase : Phase
  modEn : Bool
  supplyValid : Bool
  perst : Bool                   -- PERST# asserted
  resetAt : Nat                  -- timestamp at which the last cold or warm reset began
  perstAt : Nat                  -- timestamp from which the configuration-ready time counts (R407)
  storPerst : Bool               -- STOR_PERST# asserted
  tripLatched : Bool             -- THERM_TRIP# low
  converters : Bool              -- the converters run (R515, R528)
  timestamp : Nat
  bootCounter : Nat
  epochEvents : Nat              -- bits [31:0] of the module epoch (R458)
  defaultRig : Bool              -- the default image is still to be rigged (R494)
  deriving DecidableEq, Repr

/-- Sensors, throttle and calibration (R507-R509, R525, R526), and the telemetry mirror (R413). -/
structure Thermal where
  sensors : Tab Int              -- factory-corrected readings, in 1/16 degree C
  th : List Nat                  -- th_q of the four quadrants
  pw : Nat
  t : List Nat                   -- throttle step t_q
  calStored : Bytes              -- user calibration in the protected store ([] is factory alone)
  calInForce : Bytes
  sampleTime : Nat
  inputMv : Nat
  inputMw : Nat
  powerW : List Nat
  mirrorT : List Nat             -- THROTTLE of the mirror
  mirrorTj : List Nat            -- TJMAX of the mirror
  deriving DecidableEq, Repr

/-! ### Queue pairs and commands -/

/-- QSTS.STATE (Table QSTS). -/
inductive QpState where
  | disabled | unbound | opening | active | expired | closing
  deriving DecidableEq, Repr

/-- What a completion carries besides CID, SQHEAD and PHASE (R419). -/
structure Comp where
  status : Nat
  r0 : Nat
  r1 : Nat
  more : Bool
  trunc : Bool
  cancelled : Bool
  deriving DecidableEq, Repr

/-- A command taken and not yet finished. `id` is the model's own number, rising in the order of taking. -/
structure Cmd where
  id : Nat
  cid : Nat
  seq : Nat
  opcode : Nat
  rptr : Nat
  rlen : Nat
  keyed : Bool
  posted : Nat                   -- completions of the command posted before (R453)
  waiting : Option Comp          -- the one completion that waits for queue space (R415)
  deriving DecidableEq, Repr

/-- Names a taken command: queue pair and the model's number. -/
abbrev CmdRef := Nat × Nat

/-- Session keys (R451). -/
structure SessKeys where
  command : Bytes
  data : Bytes
  completion : Bytes
  deriving DecidableEq, Repr

/-- One queue pair with its session (R410-R416, R424, R451-R453, R460). -/
structure Qp where
  sqBase : Nat
  cqBase : Nat
  share : Nat
  vector : Nat
  cqSize : Nat                   -- entries minus 1
  sqSize : Nat                   -- entries minus 1
  ien : Bool
  en : Bool
  enHeld : Bool                  -- EN = 1 written while CLOSING (R416)
  sqHead : Nat
  sqTail : Nat
  cqTail : Nat
  cqHead : Nat
  phase : Bool
  qerr : Bool
  stopped : Bool                 -- stopped taking after a failed entry read (R421)
  fetchFails : Nat               -- failed reads of the next entry (R421)
  st : QpState
  principal : Nat
  openPrincipal : Nat
  hostNonce : Bytes
  devNonce : Bytes
  keys : Option SessKeys
  expected : Nat                 -- expected SEQ
  authTime : Nat
  bound : Option (List Nat)      -- stage epochs of the last report (R460)
  closeTaken : Bool              -- CLOSE_SESSION taken and unfinished (R414)
  msg : Bool                     -- an MSI-X message is due (R412)
  cmds : List Cmd
  deriving DecidableEq, Repr

/-- A taken command whose start waits (R414, R390, R434, R486), with its decrypted parameters. -/
structure Held where
  qp : Nat
  id : Nat
  fence : Bool
  opcode : Nat
  params : Bytes
  data : Bytes
  lost : Bool                    -- the read of its input buffer failed (R421)
  deriving DecidableEq, Repr

/-- BAR0 and the host side of the module (R402-R416). -/
structure HostIf where
  ready : Bool
  lifecycle : Nat                -- coded as GSTS.LIFECYCLE
  lifeTarget : Option Nat        -- accepted LIFECYCLE_SET whose transition has not begun (R436)
  evtVector : Nat
  evtIen : Bool
  evt : BitVec 6                 -- EVT
  evtMsg : Bool                  -- EVT_VECTOR is due
  linkWidth : Nat                -- lanes and rate in MT/s of the host link as it trained, 0 before (R402, R404)
  linkRate : Nat
  unrecovered : Bool             -- ERR_GLOBAL.UNRECOVERED
  msix : Tab (BitVec 32)         -- MSI-X table, one entry per 32-bit word
  pba : List Nat                 -- vectors whose pending bit is set
  pmState : Nat                  -- PowerState: 0 D0, 3 D3hot
  devControl : Nat               -- Device Control of the PCI Express capability
  msixControl : Nat              -- MSI-X Enable in bit 1, Function Mask in bit 0
  cfgCommand : Nat               -- Command register of configuration space
  bar0 : Nat                     -- BAR0 base, bits [63:25]
  aer : Nat                      -- Unsupported Requests logged in Advanced Error Reporting
  qps : Tab Qp
  nextId : Nat
  issuers : Tab Nat              -- principal of each command taken, 0 without a session: an audit record names it (R287)
  held : List Held
  deriving DecidableEq, Repr

/-! ### Principals, firmware -/

/-- One enrolled principal (R441-R445). -/
structure Principal where
  kind : Nat
  access : Bytes
  vx : Nat
  vy : Nat
  wrap : Bytes                   -- costume-wrapping key, customers only
  deriving DecidableEq, Repr

/-- The SMD's protected store and its counters. -/
structure Store where
  principals : Tab Principal
  removed : List Nat
  counters : Tab Nat             -- highest COUNTER accepted from each signer
  modelKeys : Tab (Nat × Bytes)  -- model: owner and key
  authFails : Tab (List Nat)     -- times of failed AUTH commands, newest first
  authBlock : Tab Nat            -- AUTH refused until this time
  keyUses : List (Bytes × Nat)   -- packages written under each costume key, which its wrapped form names (R264, R442)
  deriving DecidableEq, Repr

/-- A staged firmware image (R434, R450). -/
structure Staged where
  target : Nat
  version : Nat
  svn : Nat
  raise : Bool
  hash : Bytes
  deriving DecidableEq, Repr

/-- Running and staged firmware and a switchover in progress (R501). -/
structure Firmware where
  control : Nat                  -- FW_CONTROL
  sched : Nat                    -- FW_SCHED
  controlHash : Bytes
  schedHash : Bytes
  staged : Option Staged
  activeXd : Nat
  switching : Option CmdRef      -- FW_ACTIVATE in progress
  paused : Bool                  -- its step 1 is done: FW_SWITCHING is 1 and command intake pauses
  deriving DecidableEq, Repr

/-! ### Dies -/

/-- One entry of an error log (R479). -/
structure LogEntry where
  last : Nat
  first : Nat
  addr : Nat
  source : Nat
  level : Nat
  scope : Nat
  unrec : Bool
  stuck : Bool
  hits : Nat
  status : Nat
  rewritten : Bool               -- the line has been written as a whole since its latest error (STUCK)
  deriving DecidableEq, Repr

/-- A VEC instruction, or a MOV, as a unit takes it: by its function or kind code. -/
inductive Work where
  | vec (fn : Nat) (i : Issue) (f : VecF)
  | mov (kind : Nat) (i : Issue) (f : MovF)
  deriving DecidableEq, Repr

/-- An instruction that waits in its unit's queue and has not begun, with the scalar registers and descriptor slots it
took at issue (R225). -/
structure Taken where
  work : Work
  sregs : Tab (BitVec 64)
  dslots : Tab Nat
  deriving DecidableEq, Repr

/-- A unit instruction issued and not yet completed. `status` is known once its work has been done;
`rows` are the output rows whose chunk sums are still to be inserted (raw and correction words). -/
structure Issued where
  pc : Nat
  opcode : Nat
  stream : Bool
  sigen : Bool
  sem : Nat
  cluster : Nat
  base : Nat                     -- base slot of the chain involved
  status : Nat
  rows : List (List (BitVec 32 × BitVec 32) × List (BitVec 32 × BitVec 32))
  row : Nat                      -- next row to insert
  newRun : Bool                  -- it names a stationary tile: the first of a tile run (R120)
  waitsTile : Bool               -- its stationary tile has not finished loading (R97)
  carries : Bool                 -- it inserts into a chain
  parity : Bool                  -- its status stands for an unrecovered parity error (R477)
  flags : Nat                    -- VCSR flags that its completion sets (R154)
  slots : List Nat               -- accumulator slots that it writes through a window, or merges: 192 * cluster + 64 * array + slot (R144, R241)
  rslots : List Nat              -- accumulator slots that it reads through a window (R128)
  poison : Nat                   -- cause with which it will poison its chain when its turn comes (R204), 0 for none
  frames : List (Nat × Nat)      -- peer ports, and the PIPE frames each must have taken before it completes (R373)
  counts : List Nat              -- what it has added to the counters of its die that a replay adds to again (R478)
  quant : List (Nat × Nat × Nat) -- its quantizer records, and the elements it has clipped and converted under each (R78)
  undo : List (Nat × Nat × Byte) -- bytes that it has written: their line, their address, what they held before (R51)
  taken : Option Taken           -- it has not begun: what it is to do (R251); none for one that has
  dies : List Nat                -- dies whose memory it reads or writes through descriptors (R490)
  deriving DecidableEq, Repr

/-- Registers and counters of one die (R36, R179, R218, R412, R479-R481, R489). -/
structure Die where
  correctable : Nat
  unrecovered : Nat
  formatReserved : Nat
  epochStale : Nat
  poisoned : Nat
  ovf : List Bool                -- OVF of the five counters above
  log : List LogEntry            -- newest LAST_TIME first, at most 16
  proposed : Bool
  fenced : Bool
  cause : Nat
  corrTimes : List Nat           -- times of correctable errors (R489)
  unrecTimes : List Nat
  hostCorr : Nat                 -- ERR_DIE.CORRECTABLE
  hostUnrec : Nat
  hostCorrOvf : Bool
  hostUnrecOvf : Bool
  ueFlags : Nat                  -- UECSR bits 4 to 0
  pubSat : Nat
  skipped : Nat
  pubOvf : Bool
  skipOvf : Bool
  lastFault : Nat                -- DESC_CTL
  lastCluster : Nat
  lastAgent : Nat
  descOvf : List Bool            -- DESC_CTL bits 0 to 5
  drops : List Nat               -- MOVER0, MOVER1, DRAIN, VEC drops
  narrow : Nat
  legacy : Nat
  mover0 : List Issued
  mover1 : List Issued
  deriving DecidableEq, Repr

/-! ### Clusters -/

/-- A chain record (R127). -/
structure Chain where
  cause : Nat
  occ : Nat
  count : Nat
  corrBase : Nat
  corr : Bool
  pair : Bool
  rows : Nat
  rowsSet : Bool
  depth : Nat
  st : Nat                       -- 0 FREE, 1 OPEN, 2 POISONED
  deriving DecidableEq, Repr

/-- One brick as an array reads it: header fields and 256 element codes, row-major. -/
structure Brick where
  zero : Bool                    -- reads as zero under case 3 of R43
  e : Nat
  zp : Nat
  codes : List Nat
  sums : List Int                -- 16 sums of the role named in the tile
  deriving DecidableEq, Repr

/-- A stationary tile held in an array register (R97, R98): 8 by 8 bricks, reduction dimension padded
with zero bricks. A load that fails leaves none (R236). -/
structure Tile where
  fmt : Nat
  sums : Nat
  outlier : Nat                  -- outlier map address, 0 for none
  kdim : Nat                     -- reduction size of the weight descriptor
  bricks : List Brick
  deriving DecidableEq, Repr

/-- One tile array (R97, R121, R127, R226). -/
structure Arr where
  chains : Tab Chain
  tileD : Option Tile            -- active tile of stream D since START
  tileW : Option Tile
  nextW : Bool                   -- split mode: stream W is to take the next run (R121)
  queue : List Issued
  deriving DecidableEq, Repr

/-- A brick that consecutive vector stores assemble (R156): its first element address, the rows stored so far
as a bit mask, whether rows of an abandoned assembly lie under it, the 256 input values (none where R72 excludes
the position) and what it has added to the clip statistic. -/
structure Assembly where
  addr : Nat
  rows : Nat
  torn : Bool
  xs : List (Option Nat)
  clip : Nat
  total : Nat
  deriving DecidableEq, Repr

/-- SEQ_STATUS.STATE. -/
inductive SeqState where
  | idle | running | halted | faulted
  deriving DecidableEq, Repr

/-- One cluster: sequencer, arrays, drain units and vector engine. -/
structure Cluster where
  sregs : Tab (BitVec 64)
  dslots : Tab Nat               -- a slot's 64 bytes as one little-endian number
  sems : Tab Nat
  imem : Tab Nat                 -- an instruction's 16 bytes as one little-endian number
  pc : Nat
  st : SeqState
  semOvf : Bool
  outSignals : Nat
  faultStatus : Nat
  faultUnit : Nat
  faultPc : Nat
  faultSlot : Nat
  entryReg : Nat                 -- SEQ_CTL.ENTRY
  entries : List Nat             -- entry table (R376)
  args : List (List Nat)         -- argument table
  halting : Bool                 -- HALT issued, completion awaited (R223)
  rounds : Tab Nat               -- rounds completed at each barrier: key 8 * scope + ID
  arrived : Option (Nat × Nat)   -- waiting at the barrier with this scope and ID
  t0 : Arr
  t1 : Arr
  t2 : Arr
  drain0 : List Issued
  drain1 : List Issued
  drain2 : List Issued
  vec : List Issued
  v : Tab (BitVec 32)            -- v0-v31: key 256 * register + lane
  m : Tab (BitVec 256)           -- m0-m7
  rm : Nat                       -- VCSR.RM
  flags : Nat                    -- VCSR NX UF OF DZ NV in bits 4 to 0
  asm : List Assembly            -- bricks that stores are assembling
  deriving DecidableEq, Repr

/-- A remote signal or an acknowledgement in flight (R249). -/
structure Signal where
  src : ClusterId
  dst : ClusterId
  sem : Nat
  count : Nat
  stage : Nat
  epoch : Nat
  deriving DecidableEq, Repr

/-! ### Stages and steps -/

/-- A granule run of a memory plan (R367). -/
structure Run where
  first : Nat
  count : Nat
  kind : Nat
  space : Nat
  deriving DecidableEq, Repr

/-- An IN route with its status counters (R372, R374, R395). -/
structure InRoute where
  port : Nat                     -- 2 * link die + port
  peer : Nat
  first : Nat
  count : Nat
  arrive : Nat
  written : Nat
  stale : Nat
  gone : Nat
  tagFails : Nat
  ovf : List Bool
  epoch : Option Nat             -- highest sending epoch accepted
  arrivals : List (Nat × Nat)    -- notified arrival lines not yet used, oldest first: tag and row count
  gen : Nat                      -- generation g of the segment key (R456)
  deriving DecidableEq, Repr

/-- An OUT route (R372, R373). -/
structure OutRoute where
  port : Nat
  peer : Nat
  first : Nat
  count : Nat
  base : Nat
  gen : Nat
  deriving DecidableEq, Repr

/-- What a rigging image fixes for a stage (R363, R364, R367, R372, R379). -/
structure StageCfg where
  dies : List Nat
  model : Nat
  owner : Nat
  fixedCadence : Bool
  background : Bool
  split : Bool
  quantum : Nat
  scrubPeriod : Nat
  entryTune : Nat
  entryServe : Nat
  cadPeriod : Nat
  cadRows : Nat
  ops : List (Nat × Nat)
  qs : List (Nat × Nat)
  heads : List (Nat × Nat × Nat)
  maxTrows : Nat
  passRec : Nat
  shadow : Nat
  shadowLen : Nat
  runs : List Run
  paths : List (Nat × Nat × Nat)
  digest : Bytes
  deriving DecidableEq, Repr

/-- A loaded base model (R446-R449, R456). -/
structure Model where
  weightBytes : Nat
  segSeed : Bytes
  package : Bytes                -- the copy held in MODEL_COPY granules
  placed : List (Nat × Nat)      -- placement records: address and length
  deriving DecidableEq, Repr

/-- One row of a step: the request or feed sequence it belongs to, its position and token (R428). -/
structure Row where
  owner : Nat                    -- request identifier, or sequence number of the pass
  pos : Nat
  token : Nat
  emit : Bool
  target : Bool
  deriving DecidableEq, Repr

/-- One sub-batch group of a step with its lease (R274, R278). -/
structure Group where
  handle : Nat
  image : Nat
  gen : Nat
  job : Option Nat               -- tuning job number
  gbuf : Nat
  rows : List Row
  deriving DecidableEq, Repr

/-- The running step of a stage. -/
structure Step where
  groups : List Group
  table : Nat                    -- s2
  passIdx : Nat                  -- s3
  tuneN : Nat                    -- s4
  seed : Nat
  pass : Option Nat              -- directory index of the tuning job whose pass it is
  attempt : Nat
  aborted : Bool
  cause : Nat                    -- status of the first step fault
  parity : Bool                  -- the first step fault was for a parity cause (R477)
  errors : List (Nat × Nat × Nat) -- parity errors that wait for a replay: die, log SOURCE and ADDR (R473)
  deriving DecidableEq, Repr

/-- Why a stage is being quiesced (R384, R387, R435, R444, R490). -/
inductive QuiesceFor where
  | command | rig | unload | fence | remove
  deriving DecidableEq, Repr

/-- How far a scrubber has come on one die (R484, R485): the next line, and the ranges of busy slots that it has skipped. -/
structure ScrubPos where
  die : Nat
  next : Nat
  skipped : List (Nat × Nat)
  deriving DecidableEq, Repr

/-- A scrub pass in progress (R486, R487). -/
structure ScrubJob where
  cmd : CmdRef
  start : Nat
  reread : Nat
  refetched : Nat
  poisoned : Nat
  found : Nat
  dies : List Nat
  pos : List ScrubPos
  deriving DecidableEq, Repr

/-- One stage number (R358, R392, R398). -/
structure Stage where
  st : Nat                       -- 0 UNRIGGED 1 RIGGING 2 READY 3 QUIESCING 4 QUIESCED
  epoch : Nat
  cfg : Option StageCfg
  model : Option Model
  ins : List InRoute
  outs : List OutRoute
  step : Option Step
  why : QuiesceFor
  waiters : List CmdRef          -- commands that complete when the quiesce ends
  lead : Nat                     -- queue pair whose turn it is
  turn : Nat                     -- steps run in its turn
  turnOver : Bool                -- its turn ended early: it had no work left that the stage could admit
  posts : List (CmdRef × Comp)   -- fixed cadence: completions held for the period boundary
  scrub : Option ScrubJob
  scrubAt : Nat                  -- when the scrub period in progress began, and how far its scrubbers have come (R484)
  scrubPos : List ScrubPos
  due : List (QuiesceFor × Option CmdRef)  -- quiesces that start when the scrub pass ends (R492)
  shadowOf : Option Nat          -- the tuning job, by index, whose buffer the shadow region holds (R319, R463)
  deriving DecidableEq, Repr

/-- A rig in progress (R387, R391). -/
structure RigJob where
  cmd : Option CmdRef            -- none for the default image
  image : Bytes
  current : Option Nat           -- stage being rigged; none while stages quiesce
  todo : List Nat
  status : Nat                   -- status of the lowest failing stage so far, 0 for none
  deriving DecidableEq, Repr

/-- A serving request (R426-R430). -/
structure Request where
  id : Nat
  cmd : CmdRef
  principal : Nat
  handle : Nat
  stage : Nat
  prompt : List Nat
  maxNew : Nat
  kvPages : Nat
  stepTag : Nat
  kvFirst : Option Nat
  placed : Nat                   -- tokens placed by completed steps
  emitted : List Nat             -- tokens written, in order
  cancel : Bool
  canceller : Option CmdRef       -- the SERVE_CANCEL that waits for the step (R430)
  deriving DecidableEq, Repr

/-! ### Costumes -/

/-- A costume directory entry (R267). -/
structure DirEntry where
  customer : Nat
  model : Nat
  costumeId : Nat
  pages : Nat
  hgen : Nat
  tuning : Bool
  cached : Bool
  isolate : Bool
  st : Nat                       -- 0 FREE 1 REGISTERING 2 REGISTERED 3 RETIRING
  imageLen : Nat
  gen : Nat
  nvme : Nat
  nsid : Nat
  slba : Nat
  cacheAddr : Nat
  auditHead : Nat
  wrapped : Bytes                -- WRAPPED_KEY of the registered package, for the packages the module writes
  tables : Bytes                 -- header and tables of the image, kept by the Puppeteer (R275, R294)
  poisoned : Bool                -- a parity failure has poisoned the entry (R474)
  retire : Option CmdRef         -- the COSTUME_RETIRE in progress
  ended : Nat                    -- requests the retirement has terminated
  deriving DecidableEq, Repr

/-- An audit record (R287). -/
structure Audit where
  time : Nat
  handle : Nat
  qp : Option Nat
  adopted : Bool
  cancelled : Bool
  spec : Bool
  stage : Nat
  event : Nat
  gen : Nat
  count : Nat
  prev : Nat
  principal : Nat
  deriving DecidableEq, Repr

/-- Residency state of a costume in a stage (Table Residency states); ABSENT is no record. -/
inductive ResState where
  | loadingSpec | loadingDemand | resident | scrubbing
  deriving DecidableEq, Repr

/-- A costume held, or being loaded, in the wardrobe of a stage (R270-R284). -/
structure Resident where
  stage : Nat
  index : Nat                    -- directory index
  st : ResState
  addr : Nat                     -- package address of the image
  pages : Nat
  alt : Nat                      -- address of the second serving-copy buffer, 0 for none (R181)
  gen : Nat
  spec : Bool
  adopted : Bool
  pinned : Bool
  tuneHeld : Bool
  steps : Nat                    -- steps that leased it
  order : Nat                    -- model's order stamp: start of the load, then last use
  qp : Option Nat
  principal : Nat
  running : Bool                 -- the load runs on a link die; others wait for one (R271)
  fetching : Bool                -- a storage read is outstanding
  unplaced : Bool                -- a reload for which no run of pages is free yet: it holds no page (R270, R475)
  stored : Bool                  -- the load takes the package from storage (R272)
  pins : List CmdRef             -- COSTUME_PIN commands that wait for it
  line : Option Nat              -- a failing line whose refetch this load is (R475)
  again : Option (Option Nat × Nat)  -- a prefetch, by queue pair and principal, that came while the pages are scrubbed (R284)
  deriving DecidableEq, Repr

/-- A package in the staging cache (R273). -/
structure Cached where
  index : Nat
  addr : Nat
  bytes : Bytes
  deriving DecidableEq, Repr

/-- Pages of an image that a reload has replaced, being scrubbed (R475). -/
structure Scrub where
  stage : Nat
  index : Nat
  addr : Nat
  pages : Nat
  deriving DecidableEq, Repr

/-- Costume state of the module. -/
structure Costumes where
  dir : Tab DirEntry
  fresh : Nat                    -- entries below have been taken at least once
  freed : List Nat               -- entries freed again, oldest first
  audit : Tab Audit
  auditNext : Nat
  res : List Resident
  scrubs : List Scrub
  reserve : Tab (List Nat)       -- a stage's waiting costumes, by index, for which its pages are reserved, in their order (R283)
  cache : List Cached            -- least recently loaded first
  ckpts : Tab Bytes              -- latest checkpoint package of a costume in CHECKPOINT granules (R315)
  ckAt : Tab (List (Nat × Nat))  -- where each of them lies: staging addresses and lengths
  ckLoc : Tab (Nat × Nat × Nat × Nat)  -- controller, namespace, block and length of its latest checkpoint on storage
  order : Nat                    -- order stamps given out
  deriving DecidableEq, Repr

/-! ### Tuning and the Carousel -/

/-- A TUNE_FEED that has been accepted: its command and its sequences (R431). -/
structure Feed where
  cmd : CmdRef
  rows : Nat
  seqs : List (List Nat)
  deriving DecidableEq, Repr

/-- A shard of the optimizer state (R174). Words are 64-bit values (F64) or 32-bit values. -/
structure Shard where
  die : Nat
  kupd : Nat
  p1 : Nat
  p2 : Nat
  first : Nat
  count : Nat
  gen : Nat
  master : List Nat
  lo : List Nat                  -- PAIR precision only
  mom1 : List Nat
  mom2 : List Nat
  deriving DecidableEq, Repr

/-- Where a window stands after its last step (R313). -/
inductive Window where
  | open                         -- steps may run
  | closing                      -- its last pass is complete, and its decision is awaited
  deriving DecidableEq, Repr

/-- Ring status record counters (R355), offset order from 0x08. -/
structure RingStat where
  xnum : Nat
  absent : Nat
  late : Nat
  escal : Nat
  under : Nat
  owned : Nat
  frozen : Nat
  tagFails : Nat
  wraps : Nat
  lost : Nat
  lastCause : Nat
  ovf : List Bool
  deriving DecidableEq, Repr

/-- A block's sum finished by its owner (R347): 256 F32 words and the sample count. -/
structure Sum where
  words : List (BitVec 32)
  samples : Nat
  deriving DecidableEq, Repr

/-- Membership of a ring and the exchange in progress (R330-R353). -/
structure Ring where
  id : Nat
  members : Nat
  slot : Nat
  rings : Nat
  deadline : Nat
  hold : Nat
  key : Bytes
  salt : Bytes
  joining : Option CmdRef        -- CAROUSEL_JOIN that waits for a FORM
  leaving : Option CmdRef
  leave : Bool                   -- leaves at the next boundary
  pred : Option (Nat × Bytes)    -- predecessor's slot and JOIN_SALT
  pred2 : Option (Nat × Bytes)
  formDue : Bool
  formed : Bool                  -- a FORM has gone out since the last boundary
  formsIn : Nat                  -- FORM frames of other members received since the last boundary
  refused : Bool                 -- a REFUSE sent by this member is on its way round
  opened : Bool
  late : Bool                    -- the deadline has passed
  present : Option Bool
  final : List Nat               -- blocks final on this member
  sent : List Nat                -- blocks whose REDUCE was added to, forwarded or originated
  held : List Bytes              -- frames held in the clear until they can be dealt with (R345, R346)
  done : Tab Sum                 -- owned blocks finished
  agreed : Tab Nat               -- agreed exponents for the next exchange
  fromOvf : Bool                 -- an overflow indication came from OVF
  overflow : Bool
  attempt : Nat
  seen : Option (Nat × Nat)      -- attempt and originator of the latest lap 1 forwarded or sent
  folded : Bool                  -- the fold and the scan of the window are done (R313)
  scanBad : Bool                 -- the scan found a non-finite word
  misord : Bool                  -- two members take themselves for the leader (R333)
  lap1Sent : Bool
  decided : Option (Bool × Nat × Nat × Nat)   -- applied decision: APPLY, sigma, CLEAN, cause
  lastVerdict : Option (Nat × (Bool × Nat × Nat × Nat) × Bool)  -- the latest decision applied, with its exchange and its CKPT
  ckpt : Bool
  forwarded : List (Nat × Bool)  -- PARAM frames forwarded or sent: block and HALF
  cseq : Tab Nat                 -- control frames encrypted, by 256 * XNUM + TYPE
  early : List Bytes             -- REFUSE frames of a joiner that has no key for them yet (R334)
  stat : RingStat
  deriving DecidableEq, Repr

/-- A checkpoint request (R315). -/
structure CkReq where
  cmd : CmdRef
  toStorage : Bool
  nvme : Nat
  nsid : Nat
  slba : Nat
  deriving DecidableEq, Repr

/-- A tuning job (R290-R320); the key in the table is the directory index of its costume. -/
structure Job where
  handle : Nat
  customer : Nat
  stage : Nat
  number : Option Nat            -- job number while active
  order : Nat                    -- place in the order of waiting
  seed : Nat
  thin : Nat
  grow : Nat
  sigma : Nat
  clean : Nat
  n : Nat                        -- index of the next tuning step
  exchanges : Nat
  windows : Nat                  -- consecutive windows run since activation
  updates : Nat                  -- updates applied
  skipped : Nat                  -- shards skipped in the window's update
  follow : List Nat
  opt : Bytes
  paused : Bool
  feeds : List Feed
  passes : List (List (List Nat)) -- passes left of the first feed; [] when its step has not started
  passIdx : Nat
  running : Bool                 -- a pass runs
  due : List Nat                 -- groups of the step whose gradients the pass adds (R343)
  landed : List (Bool × Nat × Nat × Nat)  -- additions of the pass that have landed: input side, operator or quantizer, tile, group (R343)
  losses : List (BitVec 32)      -- target-row losses of the step so far
  samples : Nat                  -- target rows of the step so far
  closing : Option (Nat × Option CmdRef)  -- closes after its step: status, TUNE_CLOSE
  broken : Bool                  -- an unrecovered parity error waits for a rollback (R318)
  verdict : Nat                  -- status of the window's decision (R312)
  gbuf : Nat
  gen : Nat
  wKey : Bytes                   -- unwrapped costume key is not kept; the wrapped key is
  shards : List Shard
  window : Window
  wsteps : Nat                   -- steps run in the window
  late : List Nat                -- statuses of the exchanges that closed before the job's window reached its end, oldest first (R342)
  updating : Bool                -- a decision applies: shards are updated and blocks written
  left : List Nat                -- dies whose shard update is still due
  unwritten : List Nat           -- blocks of the update not yet in the non-current buffer
  ckReq : Option CkReq
  ckDue : Bool                   -- a checkpoint of the boundary the job stands at waits for the costume's image to be loaded (R315)
  ckStaged : Bool                -- the costume's checkpoint in staging is one of this job, or the one it was restored from (R318)
  ckStored : Bool                -- and that on storage
  ring : Option Ring
  ckSlot : Option (Nat × Nat)    -- members and slot whose blocks' optimizer state it holds: of the checkpoint it was restored from, or of the ring it left (R317, R338)
  deriving DecidableEq, Repr

/-- A peer port (R321-R328); port 2n is port A of LDn and 2n + 1 is port B. -/
structure Port where
  trained : Bool                 -- its 8 lanes have trained (R521)
  up : Bool                      -- trained, and cabled to a port of the other kind (R522)
  lockLost : Bool                -- a receiver has lost lock; the 10 us count runs
  fails : Nat                    -- failed retransmissions of the oldest frame not acknowledged
  resent : Bool                  -- that frame has been retransmitted
  doubt : Nat                    -- frames sent behind it whose NAKs are still to come
  txSeq : Nat
  rxSeq : Nat
  nak : Bool                     -- a NAK is due
  credits : List Nat             -- credit held per class
  free : List Nat                -- receive space returned since the last frame, per class
  retrans : List Bytes           -- frames sent and not acknowledged, oldest first
  waiting : List Bytes           -- frames that wait for credit or for the port, oldest first
  pipes : Nat                    -- PIPE frames that have entered the retransmit buffer since the port was reset
  wrap : Bool                    -- this side wraps its plane
  deriving DecidableEq, Repr

/-! ### Storage, parity, output -/

/-- Why an NVM Express command was issued. -/
inductive NvmeFor where
  | register (qp id index : Nat)             -- R269 step 2
  | load (stage index : Nat)                 -- R271 step 1
  | model (qp id stage : Nat) (key : Bytes)
  | restore (qp id : Nat) (params : Bytes) (data : Bytes)
  | rollback (index : Nat)
  | checkpoint (qp id index : Nat)
  deriving DecidableEq, Repr

/-- An NVM Express command outstanding on the storage port (R439). -/
structure NvmeOp where
  id : Nat
  controller : Nat
  write : Bool
  nsid : Nat
  slba : Nat
  blocks : Nat
  lba : Nat
  len : Nat
  queue : Nat                    -- I/O queue pair of its controller, from 1
  fua : Bool                     -- Force Unit Access: in every write (R438)
  second : Bool                  -- issued once more
  purpose : NvmeFor
  data : Bytes
  deriving DecidableEq, Repr

/-- The storage port (R438, R439). -/
structure Storage where
  width : Nat                    -- lanes and rate in MT/s of the storage link as it trained, 0 before (R404, R512)
  rate : Nat
  enumerated : Bool
  controllers : List NvmeController
  ops : List NvmeOp
  nextId : Nat
  deriving DecidableEq, Repr

/-- An admin command to an NVM Express controller (R438). Queue pairs are numbered from 1. -/
inductive NvmeAdmin where
  | identify (cns nsid : Nat)
  | setQueues (count : Nat)
  | createCq (queue depth : Nat)
  | createSq (queue depth : Nat)
  deriving DecidableEq, Repr

/-- What the module puts on its pins and buses. -/
inductive Out where
  | dmaWrite (addr : Nat) (bytes : Bytes)
  | msix (addr : Nat) (data : Nat)
  | readReply (bytes : Bytes)
  | unsupportedRequest
  | retryStatus
  | configReply (value : Nat)
  | frame (port : Nat) (bytes : Bytes)
  | mgtReply (bytes : Bytes)
  | pldmReading (value : Int) (state : Nat)
  | recordStatus (status : Nat)
  | nvme (op : NvmeOp)
  | nvmeReset (controller : Nat)
  | nvmeAdmin (controller : Nat) (op : NvmeAdmin)
  deriving DecidableEq, Repr

/-- The state of the block. -/
structure State where
  dev : Device
  power : Power
  thermal : Thermal
  host : HostIf
  store : Store
  fw : Firmware
  mctpEid : Nat
  records : List Bytes           -- enrolment records that wait for READY, oldest first (R468)
  mem : Memory                   -- the package address space outside registers and staging (R15)
  stg : List Host.Cell           -- staging bytes written since their granule's key was last replaced
  gkeys : Tab Nat                -- key generation of each staging granule (R455)
  keyGen : Nat                   -- key generation of a granule that `gkeys` does not list
  dies : Tab Die
  clusters : Tab Cluster
  signals : List Signal
  acks : List Signal
  stages : Tab Stage
  modRuns : List Run             -- the module's own memory plan
  rig : Option RigJob
  requests : List Request
  nextReq : Nat
  costumes : Costumes
  jobs : Tab Job
  ports : Tab Port
  storage : Storage
  poison : List Nat              -- addresses of poisoned lines (R472)
  aside : List (Nat × Nat)       -- ranges that the instruction at work has written beside its destination in PIPE_OUT granules (R373)
  draws : Nat                    -- random and free values taken so far
  wire : List Out                -- newest first
  pending : List Instr
  deriving DecidableEq, Repr

/-- The module right after a cold reset has begun (R493, R497): SUPPLY_VALID is asserted and the wipe runs. -/
def State.reset : State where
  dev := { part := .lg100, siliconRev := 0, serial := 0, vendorX := 0, vendorY := 0, identityKey := 0, seedReadable := true,
           minSvn := [0, 0], trims := [], lanes := [], seed := 0, storeKey := List.replicate 32 0, sensorOffset := [], freqBins := [1600, 1600, 1600, 1600], repairMaps := [], flashImage := [] }
  power := { phase := .coldWipe, modEn := true, supplyValid := true, perst := true, resetAt := 0, perstAt := 0x5F5E100, storPerst := true,
             tripLatched := false, converters := true, timestamp := 0, bootCounter := 0, epochEvents := 0,
             defaultRig := true }
  thermal := { sensors := [], th := [0, 0, 0, 0], pw := 0, t := [0, 0, 0, 0], calStored := [], calInForce := [],
               sampleTime := 0, inputMv := 0, inputMw := 0, powerW := [0, 0, 0, 0], mirrorT := [0, 0, 0, 0],
               mirrorTj := [0, 0, 0, 0] }
  host := { ready := false, lifecycle := 0, lifeTarget := none, evtVector := 0, evtIen := false,
            evt := 0, evtMsg := false, linkWidth := 0, linkRate := 0,
            unrecovered := false, msix := [], pba := [], pmState := 0, devControl := 0x2810, msixControl := 0, cfgCommand := 0, bar0 := 0, aer := 0,
            qps := [], nextId := 0, issuers := [], held := [] }
  store := { principals := [], removed := [], counters := [], modelKeys := [], authFails := [], authBlock := [],
             keyUses := [] }
  fw := { control := 0, sched := 0, controlHash := [], schedHash := [], staged := none, activeXd := 0,
          switching := none, paused := false }
  mctpEid := 0
  records := []
  mem := []
  stg := []
  gkeys := []
  keyGen := 0
  dies := []
  clusters := []
  signals := []
  acks := []
  stages := []
  modRuns := []
  rig := none
  requests := []
  nextReq := 0
  costumes := { dir := [], fresh := 0, freed := [], audit := [], auditNext := 0, res := [], scrubs := [], reserve := [], cache := [], ckpts := [], ckAt := [], ckLoc := [], order := 0 }
  jobs := []
  ports := []
  storage := { width := 0, rate := 0, enumerated := false, controllers := [], ops := [], nextId := 0 }
  poison := []
  aside := []
  draws := 0
  wire := []
  pending := []

end Sys2Proof.Machine
end

