-- ==== Sys2Proof/Machine/Ops.lean ====
section
/-! DEFINITION. Ops.lean: tables, bytes, memory, and the accessors of the state. -/

namespace Sys2Proof

/-! ### Bit fields and bytes (R5) -/

/-- Bits [lo + w - 1 : lo] of `n`. -/
def bits (n lo w : Nat) : Nat := n / 2 ^ lo % 2 ^ w

/-- Bit `k` of `n`. -/
def bit (n k : Nat) : Bool := n / 2 ^ k % 2 == 1

/-- The little-endian number of a run of bytes. -/
def leNat : Bytes → Nat
  | [] => 0
  | b :: r => b.toNat + 256 * leNat r

/-- `w` bytes of `n`, little-endian. -/
def toBytes : Nat → Nat → Bytes
  | 0, _ => []
  | w + 1, n => BitVec.ofNat 8 n :: toBytes w (n / 256)

/-- `len` bytes from offset `off`, zeros beyond the end. -/
def slice (b : Bytes) (off len : Nat) : Bytes :=
  let r := (b.drop off).take len
  r ++ List.replicate (len - r.length) 0

/-- The little-endian field of `w` bytes at offset `off`. -/
def fieldAt (b : Bytes) (off w : Nat) : Nat := leNat (slice b off w)

/-- The bytes of a character string, in reading order (R6). -/
def ascii (s : String) : Bytes := s.toList.map fun c => BitVec.ofNat 8 c.toNat

/-- A run of zero bytes. -/
def zeros (n : Nat) : Bytes := List.replicate n 0

/-- Every byte is zero. -/
def allZero (b : Bytes) : Bool := b.all (· == 0)

/-- `n` extended or cut to `len` bytes. -/
def padTo (b : Bytes) (len : Nat) : Bytes := slice b 0 len

/-- The signed value of the low `w` bits (R7). -/
def signed (n w : Nat) : Int :=
  let m := n % 2 ^ w
  if m < 2 ^ (w - 1) then (m : Int) else (m : Int) - (2 : Int) ^ w

/-- The two's-complement code of `i` in `w` bits. -/
def unsigned (i : Int) (w : Nat) : Nat := (i % (2 : Int) ^ w).toNat

/-- Rounding up a division. -/
def ceilDiv (a b : Nat) : Nat := (a + b - 1) / b

/-- A saturating addition (R482): the sum and whether it would have passed the largest value. -/
def satAdd (w a b : Nat) : Nat × Bool := if a + b < 2 ^ w then (a + b, false) else (2 ^ w - 1, true)

/-- The number with `x` written into bits [lo + w - 1 : lo]. -/
def setBits (n lo w x : Nat) : Nat :=
  n % 2 ^ lo + (x % 2 ^ w) * 2 ^ lo + (n / 2 ^ (lo + w)) * 2 ^ (lo + w)

/-- The number 0 or 1. -/
def b2n (b : Bool) : Nat := if b then 1 else 0

/-! ### Tables -/

namespace Table

/-- The value at a key, `d` where the table lists none. -/
def get {α : Type} (d : α) : Tab α → Nat → α
  | [], _ => d
  | (k', v) :: r, k => if k = k' then v else get d r k

/-- The listed value at a key. -/
def find {α : Type} : Tab α → Nat → Option α
  | [], _ => none
  | (k', v) :: r, k => if k = k' then some v else find r k

/-- The table without a key. -/
def erase {α : Type} (t : Tab α) (k : Nat) : Tab α := t.filter fun p => p.1 ≠ k

/-- A key and value put in their place in a table with rising keys. -/
def insert {α : Type} : Tab α → Nat → α → Tab α
  | [], k, v => [(k, v)]
  | (k', v') :: r, k, v => if k < k' then (k, v) :: (k', v') :: r else (k', v') :: insert r k v

/-- The table with a value at a key, whatever the value. -/
def put {α : Type} (t : Tab α) (k : Nat) (v : α) : Tab α := insert (erase t k) k v

/-- The table with a value at a key; the value `d` of unlisted keys removes the entry. -/
def set {α : Type} [DecidableEq α] (d : α) (t : Tab α) (k : Nat) (v : α) : Tab α :=
  if v = d then erase t k else put t k v

/-- The table with the keys in [lo, lo + len) removed. -/
def clear {α : Type} (t : Tab α) (lo len : Nat) : Tab α := t.filter fun p => p.1 < lo || lo + len ≤ p.1

/-- The table with every listed value changed. -/
def mapped {α : Type} [DecidableEq α] (d : α) (t : Tab α) (f : α → α) : Tab α :=
  t.foldr (fun p r => set d r p.1 (f p.2)) []

/-- Keys rise strictly. -/
def rising {α : Type} : Tab α → Bool
  | [] => true
  | [_] => true
  | (k, _) :: (k', v) :: r => decide (k < k') && rising ((k', v) :: r)

end Table

/-- The element at an index, `d` beyond the end. -/
def nth {α : Type} (d : α) (l : List α) (i : Nat) : α := l.getD i d

namespace Machine

/-! ### Reset values of the parts -/

def Qp.init : Qp where
  sqBase := 0
  cqBase := 0
  share := 1
  vector := 0
  cqSize := 1
  sqSize := 1
  ien := false
  en := false
  enHeld := false
  sqHead := 0
  sqTail := 0
  cqTail := 0
  cqHead := 0
  phase := true
  qerr := false
  stopped := false
  fetchFails := 0
  st := .disabled
  principal := 0
  openPrincipal := 0
  hostNonce := []
  devNonce := []
  keys := none
  expected := 0
  authTime := 0
  bound := none
  closeTaken := false
  msg := false
  cmds := []

def Die.init : Die where
  correctable := 0
  unrecovered := 0
  formatReserved := 0
  epochStale := 0
  poisoned := 0
  ovf := [false, false, false, false, false]
  log := []
  proposed := false
  fenced := false
  cause := 0
  corrTimes := []
  unrecTimes := []
  hostCorr := 0
  hostUnrec := 0
  hostCorrOvf := false
  hostUnrecOvf := false
  ueFlags := 0
  pubSat := 0
  skipped := 0
  pubOvf := false
  skipOvf := false
  lastFault := 0
  lastCluster := 0
  lastAgent := 0
  descOvf := [false, false, false, false, false, false]
  drops := [0, 0, 0, 0]
  narrow := 0
  legacy := 0
  mover0 := []
  mover1 := []

def Chain.free : Chain where
  cause := 0
  occ := 0
  count := 0
  corrBase := 0
  corr := false
  pair := false
  rows := 0
  rowsSet := false
  depth := 0
  st := 0

def Arr.init : Arr where
  chains := []
  tileD := none
  tileW := none
  nextW := false
  queue := []

def Cluster.init : Cluster where
  sregs := []
  dslots := []
  sems := []
  imem := []
  pc := 0
  st := .idle
  semOvf := false
  outSignals := 0
  faultStatus := 0
  faultUnit := 0
  faultPc := 0
  faultSlot := 0
  entryReg := 0
  entries := []
  args := []
  halting := false
  rounds := []
  arrived := none
  t0 := Arr.init
  t1 := Arr.init
  t2 := Arr.init
  drain0 := []
  drain1 := []
  drain2 := []
  vec := []
  v := []
  m := []
  rm := 0
  flags := 0
  asm := []

def Stage.init : Stage where
  st := 0
  epoch := 0
  cfg := none
  model := none
  ins := []
  outs := []
  step := none
  why := .command
  waiters := []
  lead := 0
  turn := 0
  turnOver := false
  posts := []
  scrub := none
  scrubAt := 0
  scrubPos := []
  due := []
  shadowOf := none

def DirEntry.init : DirEntry where
  customer := 0
  model := 0
  costumeId := 0
  pages := 0
  hgen := 0
  tuning := false
  cached := false
  isolate := false
  st := 0
  imageLen := 0
  gen := 0
  nvme := 0
  nsid := 0
  slba := 0
  cacheAddr := 0
  auditHead := 0xFFFFFFFF
  wrapped := []
  tables := []
  poisoned := false
  retire := none
  ended := 0

def Port.init : Port where
  trained := false
  up := false
  lockLost := false
  fails := 0
  resent := false
  doubt := 0
  txSeq := 0
  rxSeq := 0xFFFF
  nak := false
  credits := [0, 0, 0, 0]
  free := [0, 0, 0, 0]
  retrans := []
  waiting := []
  pipes := 0
  wrap := false

/-! ### Accessors -/

def State.qp (s : State) (n : Nat) : Qp := Table.get Qp.init s.host.qps n
def State.setQp (s : State) (n : Nat) (q : Qp) : State :=
  { s with host := { s.host with qps := Table.set Qp.init s.host.qps n q } }
def State.die (s : State) (n : Nat) : Die := Table.get Die.init s.dies n
def State.setDie (s : State) (n : Nat) (d : Die) : State := { s with dies := Table.set Die.init s.dies n d }
def State.cluster (s : State) (n : Nat) : Cluster := Table.get Cluster.init s.clusters n
def State.setCluster (s : State) (n : Nat) (c : Cluster) : State :=
  { s with clusters := Table.set Cluster.init s.clusters n c }
def State.stage (s : State) (n : Nat) : Stage := Table.get Stage.init s.stages n
def State.setStage (s : State) (n : Nat) (g : Stage) : State := { s with stages := Table.set Stage.init s.stages n g }
def State.port (s : State) (n : Nat) : Port := Table.get Port.init s.ports n
def State.setPort (s : State) (n : Nat) (p : Port) : State := { s with ports := Table.set Port.init s.ports n p }
def State.entry (s : State) (n : Nat) : DirEntry := Table.get DirEntry.init s.costumes.dir n
def State.setEntry (s : State) (n : Nat) (e : DirEntry) : State :=
  { s with costumes := { s.costumes with dir := Table.set DirEntry.init s.costumes.dir n e } }
def State.job (s : State) (n : Nat) : Option Job := Table.find s.jobs n
def State.setJob (s : State) (n : Nat) (j : Job) : State := { s with jobs := Table.put s.jobs n j }
def State.send (s : State) (o : Out) : State := { s with wire := o :: s.wire }

def Cluster.arr (c : Cluster) : Nat → Arr
  | 0 => c.t0
  | 1 => c.t1
  | _ => c.t2
def Cluster.setArr (c : Cluster) (t : Nat) (a : Arr) : Cluster :=
  match t with
  | 0 => { c with t0 := a }
  | 1 => { c with t1 := a }
  | _ => { c with t2 := a }
def Cluster.drain (c : Cluster) : Nat → List Issued
  | 0 => c.drain0
  | 1 => c.drain1
  | _ => c.drain2
def Cluster.setDrain (c : Cluster) (t : Nat) (q : List Issued) : Cluster :=
  match t with
  | 0 => { c with drain0 := q }
  | 1 => { c with drain1 := q }
  | _ => { c with drain2 := q }
def Arr.chain (a : Arr) (b : Nat) : Chain := Table.get Chain.free a.chains b
def Arr.setChain (a : Arr) (b : Nat) (r : Chain) : Arr := { a with chains := Table.set Chain.free a.chains b r }

/-- Scalar register read: s0 reads as 0 (R219). -/
def Cluster.sreg (c : Cluster) (r : Nat) : BitVec 64 := if r = 0 then 0 else Table.get 0 c.sregs r
/-- Scalar register write: writes to s0 are ignored (R219). -/
def Cluster.setSreg (c : Cluster) (r : Nat) (v : BitVec 64) : Cluster :=
  if r = 0 then c else { c with sregs := Table.set 0 c.sregs r v }
def Cluster.sem (c : Cluster) (n : Nat) : Nat := Table.get 0 c.sems n
def Cluster.setSem (c : Cluster) (n v : Nat) : Cluster := { c with sems := Table.set 0 c.sems n v }
/-- Addition to a semaphore, saturating with SEM_OVF (R247). -/
def Cluster.addSem (c : Cluster) (n k : Nat) : Cluster :=
  let r := satAdd 32 (c.sem n) k
  { c.setSem n r.1 with semOvf := c.semOvf || r.2 }
def Cluster.dslot (c : Cluster) (n : Nat) : Nat := Table.get 0 c.dslots n

/-! ### Memory -/

/-- First address of staging memory (R15). -/
def stagingBase : Nat := 0x80_0000_0000

/-- The staging granule of an address (R366). -/
def granuleOf (a : Nat) : Nat := (a - stagingBase) / 0x400_0000

/-- Key generation of a staging granule (R455). -/
def State.gkey (s : State) (h : Nat) : Nat := Table.get s.keyGen s.gkeys h

/-- One byte of the package address space. -/
def State.readByte (s : State) (a : Nat) : Byte :=
  if a < stagingBase then Table.get 0 s.mem a
  else (Table.find s.stg a).getD (Config.staging (s.gkey (granuleOf a)) a)

/-- Writes one byte. -/
def State.writeByte (s : State) (a : Nat) (b : Byte) : State :=
  if a < stagingBase then { s with mem := Table.set 0 s.mem a b } else { s with stg := Table.put s.stg a b }

/-- `n` bytes from address `a`. -/
def State.readBytes (s : State) (a : Nat) : Nat → Bytes
  | 0 => []
  | n + 1 => s.readByte a :: s.readBytes (a + 1) n

/-- Writes a run of bytes from address `a`. -/
def State.writeBytes (s : State) (a : Nat) : Bytes → State
  | [] => s
  | b :: r => (s.writeByte a b).writeBytes (a + 1) r

/-- The little-endian number of `n` bytes at `a`. -/
def State.readLE (s : State) (a n : Nat) : Nat := leNat (s.readBytes a n)

/-- Writes `n` bytes of `x` at `a`, little-endian. -/
def State.writeLE (s : State) (a n x : Nat) : State := s.writeBytes a (toBytes n x)

/-- Zeros over a range of on-package memory. -/
def State.zeroRange (s : State) (a len : Nat) : State :=
  { s with mem := Table.clear s.mem a len
           poison := s.poison.filter fun l => l < a || a + len ≤ l }

/-- Zeros over a range of staging memory. -/
def State.zeroStaging (s : State) (a len : Nat) : State := s.writeBytes a (zeros len)

/-- New keys for a staging granule: its earlier contents are unreadable (R455). -/
def State.rekey (s : State) (h : Nat) : State :=
  { s with stg := Table.clear s.stg (stagingBase + h * 0x400_0000) 0x400_0000
           gkeys := Table.put s.gkeys h (s.draws + s.keyGen + 1)
           draws := s.draws + 1 }

/-- New keys for every staging granule (R455, R493). -/
def State.rekeyAll (s : State) : State :=
  { s with stg := [], gkeys := [], keyGen := s.draws + s.keyGen + 1, draws := s.draws + 1 }

/-- The bytes at which two memories differ, as the first holds them; `f` bounds their lengths together. -/
def Memory.changed : Nat → Memory → Memory → List (Nat × Byte)
  | 0, _, _ => []
  | f + 1, x :: o, y :: n =>
    if x.1 < y.1 then x :: Memory.changed f o (y :: n)
    else if y.1 < x.1 then (y.1, 0) :: Memory.changed f (x :: o) n
    else if x.2 = y.2 then Memory.changed f o n else x :: Memory.changed f o n
  | f + 1, x :: o, [] => x :: Memory.changed f o []
  | f + 1, [], y :: n => (y.1, 0) :: Memory.changed f [] n
  | _ + 1, [], [] => []

/-- The canonical form of on-package memory: addresses rise strictly and no byte is 0. -/
abbrev Memory.wf (m : Memory) : Prop := Table.rising m = true ∧ ∀ c ∈ m, c.2 ≠ 0

/-- A draw of `n` random bytes (R442). -/
def State.random (s : State) (n : Nat) : Bytes × State :=
  ((List.range n).map (Config.rng s.draws), { s with draws := s.draws + 1 })

/-- A 32-bit value that the spec leaves open. -/
def State.free (s : State) : BitVec 32 × State := (Config.free32 s.draws, { s with draws := s.draws + 1 })

/-! ### Time -/

/-- The module timestamp (R496). -/
def State.now (s : State) : Nat := s.power.timestamp

/-- Every die is out of reset and may act: not while SUPPLY_VALID is low, nor in the wipe of a cold or warm reset (R499,
R500). -/
def State.diesRun (s : State) : Bool := s.power.phase == .running || s.power.phase == .lifeWipe

/-- A lifted next state. -/
abbrev Res := Host.Outcome State Fault Refusal

/-- A meaning that acts only where a condition of the spec holds, and otherwise leaves the state as it is
(DESIGN CHOICE, log 10: a command that waits, or an event that has not occurred, changes nothing). -/
@[inline] def guarded (c : Bool) (s t : State) : Res := if c then .next t else .next s

/-! ### The part's address map (R13, R15) -/

/-- Compute dies the part carries. -/
def Part.cds : Part → Nat
  | .lg100 => 64
  | .lg052 => 32
def Part.mds : Part → Nat
  | .lg100 => 24
  | .lg052 => 12
def Part.lds : Part → Nat
  | .lg100 => 8
  | .lg052 => 4
def Part.code : Part → Nat
  | .lg100 => 1
  | .lg052 => 2
/-- Granules of memory-die space and of staging memory (R366). -/
def Part.mdGranules (p : Part) : Nat := 16 * p.mds
def Part.stGranules : Part → Nat
  | .lg100 => 8192
  | .lg052 => 4096

/-- The part carries the die of a die index (R412). -/
def Part.hasDie (p : Part) (i : Nat) : Bool :=
  i < p.cds || (64 ≤ i && i < 64 + p.mds) || (88 ≤ i && i < 88 + p.lds) || (96 ≤ i && i < 100)

/-- Quadrant of a die index (R13). -/
def quadrantOf (i : Nat) : Nat :=
  if i < 64 then i / 16 else if i < 88 then (i - 64) / 6 else if i < 96 then (i - 88) / 2 else i - 96

/-- Window of compute die `n`, of cluster `c` in it, and of an accumulator memory (R15). -/
def dieWindow (n : Nat) : Nat := 0x10_0000_0000 + n * 0x4000_0000
def clusterWindow (c : ClusterId) : Nat := dieWindow (c / 16) + c % 16 * 0x80_0000
def accWindow (c : ClusterId) (t : Nat) : Nat := dieWindow (c / 16) + 0x800_0000 + (3 * (c % 16) + t) * 0x40_0000
def ueMemory (n : Nat) : Nat := dieWindow n + 0x1800_0000

/-- The staging channel that holds a staging address; link die LDn carries channels 2n and 2n + 1 (R14). -/
def Part.channel (p : Part) (a : Nat) : Nat := Config.channelOf a % (2 * p.lds)

/-- The die index of the die that holds an address: memory dies, compute dies, link dies with their staging
channels, system dies; 127 for none. -/
def Part.dieOfAddr (p : Part) (a : Nat) : Nat :=
  if a < 0x6_0000_0000 then 64 + a / 0x4000_0000
  else if a < 0x10_0000_0000 then 127
  else if a < 0x20_0000_0000 then (a - 0x10_0000_0000) / 0x4000_0000
  else if a < 0x20_8000_0000 then 88 + (a - 0x20_0000_0000) / 0x1000_0000
  else if a < 0x21_0000_0000 then 127
  else if a < 0x21_4000_0000 then 96 + (a - 0x21_0000_0000) / 0x1000_0000
  else if a < stagingBase then 127
  else 88 + p.channel a / 2

/-- Operations a memory die and a link die accept at once (R217), and operations in flight over the whole part,
with the 320 of each compute die (R22). -/
def dieRequests : Nat := 128
def clusterOps : Nat := 320
def Part.inFlight (p : Part) : Nat := p.cds * clusterOps + (p.mds + p.lds) * dieRequests

end Machine

end Sys2Proof
end

