-- ==== Sys2Proof/Machine/Chains.lean ====
section
/-! DEFINITION. Chains.lean: chain records, the slots a chain occupies, and writes of a chain record
(ch. Accumulator memory, R125-R128). -/

namespace Sys2Proof.Machine

/-- A chain record as its 64-bit register reads (R127). -/
def Chain.word (r : Chain) : Nat :=
  r.st + r.depth * 2 ^ 9 + b2n r.rowsSet * 2 ^ 12 + r.rows * 2 ^ 13 + b2n r.pair * 2 ^ 16 + b2n r.corr * 2 ^ 17 +
    r.corrBase * 2 ^ 18 + r.count * 2 ^ 32 + r.occ * 2 ^ 40 + r.cause * 2 ^ 48

/-- The record that a 64-bit value writes; RES0 fields are ignored (R9). -/
def Chain.ofWord (n : Nat) : Chain where
  cause := bits n 48 16
  occ := bits n 40 8
  count := bits n 32 8
  corrBase := bits n 18 6
  corr := bit n 17
  pair := bit n 16
  rows := bits n 13 3
  rowsSet := bit n 12
  depth := bits n 9 3
  st := bits n 0 2

/-- Slots of the raw tree at a base, and of the whole chain (R125). -/
def Chain.rawSlots (r : Chain) (b : Nat) : List Nat :=
  (List.range ((1 + r.depth) * (if r.pair then 2 else 1))).map (b + ·)
def Chain.slots (r : Chain) (b : Nat) : List Nat :=
  r.rawSlots b ++ (if r.corr then r.rawSlots r.corrBase else [])

/-- Slots that OPEN and POISONED chains other than the one at base `b` hold. -/
def Arr.held (a : Arr) (b : Nat) : List Nat :=
  (a.chains.filter fun p => p.1 ≠ b && (p.2.st = 1 || p.2.st = 2)).flatMap fun p => p.2.slots p.1

/-- A slot belongs to some OPEN or POISONED chain. -/
def Arr.owned (a : Arr) (k : Nat) : Bool := (a.held 64).contains k

def meets (x y : List Nat) : Bool := x.any y.contains

/-- What R126 finds in a layout: 0, ACC_CHAIN_DEPTH or ACC_HAZARD, in this order (log 70). -/
def layoutOf (b : Nat) (r : Chain) (others : List Nat) : Nat :=
  if (r.slots b).any (63 < ·) then 0x0203
  else if meets (r.slots b) others || (r.corr && meets (r.rawSlots b) (r.rawSlots r.corrBase)) then 0x0202
  else 0

/-- An accumulation is in flight on the chain of this entry. -/
def Issued.busy (e : Issued) : Bool := e.carries && e.status = 0 && (e.row < e.rows.length || e.poison ≠ 0)

/-- A slot of an accumulator memory among all of the module's, as entries name the slots they use. -/
def slotId (cl t k : Nat) : Nat := 192 * cl + 64 * t + k

/-- Slots that an entry uses, of one accumulator memory. -/
def Issued.slotsOf (e : Issued) (cl t : Nat) : List Nat :=
  (e.slots ++ e.rslots).filterMap fun k => if k / 64 = 3 * cl + t then some (k % 64) else none

/-- An accumulation, or an ACC.MERGE, is in flight on one of these slots (R144). -/
def Arr.busyOn (a : Arr) (slots : List Nat) : Bool :=
  a.queue.any fun e => (e.busy && meets ((a.chain e.base).slots e.base) slots) ||
    (e.opcode = 0x19 && meets (e.slots.map (· % 64)) slots)

/-- Slots of an accumulator memory that VEC and MOV instructions in flight read or write through its window. -/
def State.windowed (s : State) (cl t : Nat) : List Nat :=
  let movers := s.dies.flatMap fun x => x.2.mover0 ++ x.2.mover1
  (((s.cluster cl).vec ++ movers).filter (·.taken.isNone)).flatMap (·.slotsOf cl t)

/-- A write of a chain record takes effect (R128); `used` are the slots that instructions in flight use through the window.
A record written with STATE FREE has a layout like another, which R126 judges too. DESIGN CHOICE, log 70. -/
def Arr.recordOk (a : Arr) (used : List Nat) (b n : Nat) : Bool :=
  let r := Chain.ofWord n
  let cover := (a.chain b).slots b ++ r.slots b
  !a.busyOn cover && !meets used cover && layoutOf b r (a.held b) = 0 && r.occ < 2 ^ (r.depth + 1) && r.st ≠ 3

def Arr.writeRecord (a : Arr) (used : List Nat) (b n : Nat) : Arr :=
  if a.recordOk used b n then a.setChain b (Chain.ofWord n) else a

/-- CHAIN_RECORD_WRITE (R128): each record on its own, in ascending address; ACC_HAZARD when one is refused. -/
def writeRecords (used : List Nat) (a : Arr) : List (Nat × Nat) → Arr × Bool
  | [] => (a, false)
  | (b, n) :: r =>
    let x := writeRecords used (a.writeRecord used b n) r
    (x.1, x.2 || !a.recordOk used b n)

/-- Pairs sorted by their first part. -/
def insertPair (p : Nat × Nat) : List (Nat × Nat) → List (Nat × Nat)
  | [] => [p]
  | q :: r => if p.1 ≤ q.1 then p :: q :: r else q :: insertPair p r
def sortPairs (l : List (Nat × Nat)) : List (Nat × Nat) := l.foldr insertPair []

/-- Numbers in ascending order, each once. -/
def sortNats (l : List Nat) : List Nat := (sortPairs (l.map fun n => (n, 0))).map (·.1) |>.eraseDups

/-- A write to a chain table on a die that the part does not carry, or on one in reset, has no effect (R15, R499). -/
def execChainRecordWrite (cl : ClusterId) (array : Nat) (records : List (Nat × Nat)) (s : State) : Res :=
  let c := s.cluster cl
  let x := writeRecords (s.windowed cl array) (c.arr array) (sortPairs records)
  guarded (s.dev.part.hasDie (cl / 16) && s.diesRun) s ((s.setCluster cl (c.setArr array x.1)).send (.recordStatus (if x.2 then 0x0202 else 0)))

/-- Address of a word of a slot (R123). -/
def slotWord (cl t slot r n : Nat) : Nat := accWindow cl t + slot * 0x1_0000 + r * 0x200 + 4 * n

/-- Package address of the record of a chain in its chain table (R126). -/
def chainAddr (cl t b : Nat) : Nat := dieWindow (cl / 16) + cl % 16 * 0x80_0000 + 0x70_0000 + t * 0x200 + 8 * b

/-- Poisons a chain, which keeps a cause it already has. -/
def Chain.poison (r : Chain) (cause : Nat) : Chain := if r.st = 1 then { r with st := 2, cause := cause } else r

end Sys2Proof.Machine
end

