-- ==== Sys2Proof/Machine/Fp.lean ====
section
/-! DEFINITION. Fp.lean: IEEE 754 arithmetic on codes (R27), accumulator arithmetic (R142), and the
special-function unit (R157). A code is a number; every value is formed exactly and rounded once. -/

namespace Sys2Proof

/-- A binary format: exponent width and fraction width (R26). -/
structure Fmt where
  eb : Nat
  mb : Nat

namespace Fmt
def f32 : Fmt := ⟨8, 23⟩
def f64 : Fmt := ⟨11, 52⟩
def w16 : Fmt := ⟨8, 7⟩
def bias (f : Fmt) : Nat := 2 ^ (f.eb - 1) - 1
def emin (f : Fmt) : Int := 1 - (f.bias : Int)
def width (f : Fmt) : Nat := 1 + f.eb + f.mb
def inf (f : Fmt) (s : Bool) : Nat := b2n s * 2 ^ (f.eb + f.mb) + (2 ^ f.eb - 1) * 2 ^ f.mb
def maxFin (f : Fmt) (s : Bool) : Nat := f.inf s - 1
def zero (f : Fmt) (s : Bool) : Nat := b2n s * 2 ^ (f.eb + f.mb)
/-- The canonical NaN: positive, quiet, no payload (R142, R157). -/
def qnan (f : Fmt) : Nat := f.inf false + 2 ^ (f.mb - 1)
end Fmt

/-- A decoded value: (-1)^s * m * 2^e when finite. -/
inductive Fval where
  | nan (signalling : Bool)
  | inf (s : Bool)
  | fin (s : Bool) (m : Nat) (e : Int)
  deriving DecidableEq, Repr

/-- Exception flags as VCSR holds them (R152). -/
def flagNV : Nat := 1
def flagDZ : Nat := 2
def flagOF : Nat := 4
def flagUF : Nat := 8
def flagNX : Nat := 16

namespace Fp

/-- Value of a code. -/
def dec (f : Fmt) (c : Nat) : Fval :=
  let s := bit c (f.eb + f.mb)
  let ex := bits c f.mb f.eb
  let fr := bits c 0 f.mb
  if ex = 2 ^ f.eb - 1 then (if fr = 0 then .inf s else .nan (!bit c (f.mb - 1)))
  else if ex = 0 then .fin s fr (f.emin - f.mb)
  else .fin s (2 ^ f.mb + fr) ((ex : Int) - f.bias - f.mb)

def isNan (f : Fmt) (c : Nat) : Bool :=
  match dec f c with
  | .nan _ => true
  | _ => false

def isFinite (f : Fmt) (c : Nat) : Bool :=
  match dec f c with
  | .fin _ _ _ => true
  | _ => false

/-- Rounding step on a quotient: `rem` of `full`, `st` for non-zero bits below. -/
def roundUp (rm : Nat) (s : Bool) (odd : Bool) (rem full : Nat) (st : Bool) : Bool :=
  let inexact := rem ≠ 0 || st
  match rm with
  | 0 => 2 * rem > full || (2 * rem == full && (st || odd))
  | 1 => false
  | 2 => !s && inexact
  | _ => s && inexact

/-- The code of (-1)^s * m * 2^e, `st` for a non-zero remainder below, under a rounding attribute, with flags.
Tininess is detected after rounding (R154). -/
def round (f : Fmt) (rm : Nat) (s : Bool) (m : Nat) (e : Int) (st : Bool) : Nat × Nat :=
  if m = 0 && !st then (f.zero s, 0)
  else
    let lead : Int := e + (Nat.log2 m : Int)
    let lsb : Int := max (lead - f.mb) (f.emin - f.mb)
    let sh := (lsb - e).toNat
    let m' := if lsb < e then m * 2 ^ (e - lsb).toNat else m
    let q := m' / 2 ^ sh
    let rem := m' % 2 ^ sh
    let up := roundUp rm s (q % 2 == 1) rem (2 ^ sh) st
    let q' := if up then q + 1 else q
    let inexact := rem ≠ 0 || st
    -- rounding with an unbounded exponent decides tininess
    let ush := (lead - f.mb - e).toNat
    let uq := m' / 2 ^ ush
    let uup := roundUp rm s (uq % 2 == 1) (m' % 2 ^ ush) (2 ^ ush) st
    let tiny := lead < f.emin && !(lead = f.emin - 1 && uup && uq + 1 == 2 ^ (f.mb + 1))
    let big : Bool := if q' ≥ 2 ^ (f.mb + 1) then lsb + f.mb + 1 > f.bias else lsb + f.mb > f.bias && q' ≥ 2 ^ f.mb
    if big then
      let toInf := rm = 0 || (rm = 2 && !s) || (rm = 3 && s)
      (if toInf then f.inf s else f.maxFin s, flagOF + flagNX)
    else
      let ex := lsb + f.mb + f.bias       -- biased exponent when q' has its leading bit
      let code := if q' < 2 ^ f.mb then q' else (ex.toNat - 1) * 2 ^ f.mb + q'
      (f.zero s + code, if inexact then (if tiny then flagUF + flagNX else flagNX) else 0)

/-- A quiet NaN whose sign and payload the spec leaves open. -/
def qnanOf (f : Fmt) (n : Nat) : Nat :=
  f.qnan + n % 2 ^ (f.mb - 1) + (n / 2 ^ (f.mb - 1) % 2) * 2 ^ (f.eb + f.mb)
def someNan (f : Fmt) (a b c : Nat) : Nat := qnanOf f (Config.nanPayload a b c)

def snan (f : Fmt) (c : Nat) : Bool :=
  match dec f c with
  | .nan true => true
  | _ => false

/-- NaN outcome of an operation on three codes: invalid when one signals. -/
def nanOut (f : Fmt) (a b c : Nat) : Nat × Nat :=
  (someNan f a b c, if snan f a || snan f b || snan f c then flagNV else 0)

def neg (f : Fmt) (c : Nat) : Nat :=
  if bit c (f.eb + f.mb) then c - 2 ^ (f.eb + f.mb) else c + 2 ^ (f.eb + f.mb)
def abs (f : Fmt) (c : Nat) : Nat := c % 2 ^ (f.eb + f.mb)

/-- Exact sum of two signed magnitudes, at the lower exponent: sign, magnitude, exponent. -/
def sumMag (s : Bool) (m : Nat) (e : Int) (t : Bool) (n : Nat) (g : Int) : Bool × Nat × Int :=
  let lo := min e g
  let a := m * 2 ^ (e - lo).toNat
  let b := n * 2 ^ (g - lo).toNat
  if s = t then (s, a + b, lo) else if a > b then (s, a - b, lo) else (t, b - a, lo)

/-- Rounded sum; an exact zero of operands of opposite sign is -0 only under roundTowardNegative. -/
def addVal (f : Fmt) (rm : Nat) (s : Bool) (m : Nat) (e : Int) (t : Bool) (n : Nat) (g : Int) : Nat × Nat :=
  let r := sumMag s m e t n g
  if r.2.1 = 0 then (f.zero (if s = t then s else rm = 3), 0) else round f rm r.1 r.2.1 r.2.2 false

def add (f : Fmt) (rm a b : Nat) : Nat × Nat :=
  match dec f a, dec f b with
  | .nan _, _ => nanOut f a b 0
  | _, .nan _ => nanOut f a b 0
  | .inf s, .inf t => if s = t then (f.inf s, 0) else (someNan f a b 0, flagNV)
  | .inf s, _ => (f.inf s, 0)
  | _, .inf t => (f.inf t, 0)
  | .fin s m e, .fin t n g => addVal f rm s m e t n g

def sub (f : Fmt) (rm a b : Nat) : Nat × Nat := if isNan f b then add f rm a b else add f rm a (neg f b)

def mul (f : Fmt) (rm a b : Nat) : Nat × Nat :=
  match dec f a, dec f b with
  | .nan _, _ => nanOut f a b 0
  | _, .nan _ => nanOut f a b 0
  | .inf s, .inf t => (f.inf (s ^^ t), 0)
  | .inf s, .fin t n _ => if n = 0 then (someNan f a b 0, flagNV) else (f.inf (s ^^ t), 0)
  | .fin s m _, .inf t => if m = 0 then (someNan f a b 0, flagNV) else (f.inf (s ^^ t), 0)
  | .fin s m e, .fin t n g => round f rm (s ^^ t) (m * n) (e + g) false

/-- a * b + c with one rounding. Of a zero, an infinity and a quiet NaN, whether invalid is raised is left to
the implementation (log 62). -/
def fma (f : Fmt) (rm a b c : Nat) : Nat × Nat :=
  match dec f a, dec f b, dec f c with
  | .fin s m e, .fin t n g, .fin u k h => addVal f rm (s ^^ t) (m * n) (e + g) u k h
  | .fin _ _ _, .fin _ _ _, .inf u => (f.inf u, 0)
  | x, y, z =>
    match z with
    | .nan _ =>
      let inv : Bool := match x, y with
        | .inf _, .fin _ 0 _ => true
        | .fin _ 0 _, .inf _ => true
        | _, _ => false
      let r := nanOut f a b c
      (r.1, if inv && Config.fmaInvalid then flagNV else r.2)
    | _ =>
      let p := mul f rm a b
      if isNan f p.1 then (someNan f a b c, p.2) else
        let r := add f rm p.1 c
        (if isNan f r.1 then someNan f a b c else r.1, r.2)

def div (f : Fmt) (rm a b : Nat) : Nat × Nat :=
  match dec f a, dec f b with
  | .nan _, _ => nanOut f a b 0
  | _, .nan _ => nanOut f a b 0
  | .inf _, .inf _ => (someNan f a b 0, flagNV)
  | .inf s, .fin t _ _ => (f.inf (s ^^ t), 0)
  | .fin s _ _, .inf t => (f.zero (s ^^ t), 0)
  | .fin s m e, .fin t n g =>
    if n = 0 then (if m = 0 then (someNan f a b 0, flagNV) else (f.inf (s ^^ t), flagDZ))
    else if m = 0 then (f.zero (s ^^ t), 0)
    else
      let k := f.mb + 3 + Nat.log2 n + 1
      let x := m * 2 ^ k
      round f rm (s ^^ t) (x / n) (e - g - k) (x % n ≠ 0)

/-- Integer square root, by bits from above. -/
def isqrtAux (n : Nat) : Nat → Nat → Nat
  | 0, r => r
  | k + 1, r =>
    let c := r + 2 ^ k
    isqrtAux n k (if c * c ≤ n then c else r)

def isqrt (n : Nat) : Nat := isqrtAux n (Nat.log2 n / 2 + 1) 0

def sqrt (f : Fmt) (rm a : Nat) : Nat × Nat :=
  match dec f a with
  | .nan _ => nanOut f a 0 0
  | .inf s => if s then (someNan f a 0 0, flagNV) else (f.inf false, 0)
  | .fin s m e =>
    if m = 0 then (f.zero s, 0)
    else if s then (someNan f a 0 0, flagNV)
    else
      let k := 2 * (f.mb + 4) + (if (e % 2) = 0 then 0 else 1)
      let x := m * 2 ^ k
      let r := isqrt x
      round f rm false r ((e - k) / 2) (r * r ≠ x)

/-- Order of two values that are not NaN: -1, 0 or 1, with the zeros equal. -/
def cmpVal (x y : Fval) : Int :=
  let rank : Fval → Int := fun v => match v with
    | .inf true => -2
    | .inf false => 2
    | _ => 0
  match x, y with
  | .fin s m e, .fin t n g =>
    let lo := min e g
    let a : Int := (m * 2 ^ (e - lo).toNat : Nat)
    let b : Int := (n * 2 ^ (g - lo).toNat : Nat)
    let a := if s then -a else a
    let b := if t then -b else b
    if a < b then -1 else if a = b then 0 else 1
  | x, y => if rank x < rank y then -1 else if rank x = rank y then 0 else 1

def lt (f : Fmt) (a b : Nat) : Bool := !isNan f a && !isNan f b && cmpVal (dec f a) (dec f b) < 0
def le (f : Fmt) (a b : Nat) : Bool := !isNan f a && !isNan f b && cmpVal (dec f a) (dec f b) ≤ 0
def eq (f : Fmt) (a b : Nat) : Bool := !isNan f a && !isNan f b && cmpVal (dec f a) (dec f b) = 0

/-- IEEE 754-2019 maximum and minimum: a NaN gives a NaN, and -0 is below +0. -/
def maximum (f : Fmt) (a b : Nat) : Nat × Nat :=
  if isNan f a || isNan f b then nanOut f a b 0
  else if lt f a b then (b, 0) else if lt f b a then (a, 0) else (if bit a (f.eb + f.mb) then b else a, 0)
def minimum (f : Fmt) (a b : Nat) : Nat × Nat :=
  if isNan f a || isNan f b then nanOut f a b 0
  else if lt f a b then (a, 0) else if lt f b a then (b, 0) else (if bit a (f.eb + f.mb) then a else b, 0)

/-- Conversion between two of the IEEE formats under a rounding attribute. -/
def conv (f g : Fmt) (rm a : Nat) : Nat × Nat :=
  match dec f a with
  | .nan sg => (someNan g a 0 0, if sg then flagNV else 0)
  | .inf s => (g.inf s, 0)
  | .fin s m e => if m = 0 then (g.zero s, 0) else round g rm s m e false

/-- F32 widened exactly to F64, the payload of a NaN kept (R54). -/
def widen (a : Nat) : Nat :=
  match dec .f32 a with
  | .nan _ => b2n (bit a 31) * 2 ^ 63 + 2047 * 2 ^ 52 + bits a 0 23 * 2 ^ 29
  | _ => (conv .f32 .f64 0 a).1

/-- A NaN code made quiet, its other bits kept; any other code as it is. -/
def quiet (f : Fmt) (a : Nat) : Nat := if snan f a then a + 2 ^ (f.mb - 1) else a

/-- The integer `n` converted to a format. -/
def ofNat (f : Fmt) (rm n : Nat) : Nat := (round f rm false n 0 false).1

/-! ### Accumulator nodes (R142) -/

/-- A subnormal code reads and is written as +0; NaN is the canonical NaN. -/
def flush (c : Nat) : Nat :=
  if isNan .f32 c then Fmt.f32.qnan
  else if bits c 23 8 = 0 && bits c 0 23 ≠ 0 then 0 else c

/-- Addition at an accumulator node: round to nearest, ties to even, with the deviations of R142. -/
def acc (a b : Nat) : Nat := flush (add .f32 0 (flush a) (flush b)).1
def accSub (a b : Nat) : Nat := acc a (if isNan .f32 b then b else neg .f32 (flush b))
def accMul (a b : Nat) : Nat := flush (mul .f32 0 (flush a) (flush b)).1
def accFma (a b c : Nat) : Nat := flush (fma .f32 0 (flush a) (flush b) (flush c)).1

end Fp

/-! ### The special-function unit (R157): fixed-point enclosures of increasing precision -/

namespace Sfu

/-- A lower bound of an exact value and the size of its error, in units of 2^(-p). -/
abbrev Enc := Nat × Nat

/-- Sum of z^(2k+1)/(2k+1), scaled by 2^p: terms left, power so far, index. -/
def atanhAux (p z2 : Nat) : Nat → Nat → Nat → Nat
  | 0, _, _ => 0
  | n + 1, pw, k => pw / (2 * k + 1) + atanhAux p z2 n (pw * z2 / 2 ^ p) (k + 1)

/-- 2 * atanh(a/b) scaled by 2^p, for 0 ≤ a/b ≤ 1/3, below the exact value by at most 4 * p + 40 units. -/
def twoAtanh (p a b : Nat) : Nat :=
  let z := a * 2 ^ p / b
  2 * atanhAux p (z * z / 2 ^ p) (p / 3 + 4) z 0

def ln2 (p : Nat) : Nat := twoAtanh p 1 3

/-- Sum of y^k/k!, scaled by 2^p. -/
def expAux (p y : Nat) : Nat → Nat → Nat → Nat
  | 0, _, _ => 0
  | n + 1, t, k => t + expAux p y n (t * y / 2 ^ p / (k + 1)) (k + 1)

/-- exp(y / 2^p) scaled by 2^p for y < 2^p. -/
def expFix (p y : Nat) : Nat := expAux p y (p / 2 + 20) (2 ^ p) 0

/-- Error allowed to every enclosure below. -/
def slack (p : Nat) : Nat := 64 * (p + 64)

/-- Rounds both ends of the enclosure (v ± err) * 2^e; agreement gives the correctly rounded code. -/
def agree (s : Bool) (v err : Nat) (e : Int) : Option (Nat × Nat) :=
  let a := Fp.round .f32 0 s (v - err) e true
  let b := Fp.round .f32 0 s (v + err) e true
  if a.1 = b.1 then some b else none

/-- The first precision at which the two ends agree. -/
def search (f : Nat → Option (Nat × Nat)) : List Nat → Nat × Nat
  | [] => (0, flagNX)
  | p :: r =>
    match f p with
    | some c => c
    | none => search f r

def precisions : List Nat := [96, 160, 288, 544, 1056, 2080]

/-- floor and fraction of (-1)^s * m * 2^e: the integer part, and the fraction scaled by 2^p. -/
def split (s : Bool) (m : Nat) (e : Int) (p : Nat) : Int × Nat :=
  let num : Int := if s then -(m : Int) else m
  if 0 ≤ e then (num * 2 ^ e.toNat, 0)
  else
    let d : Int := 2 ^ (-e).toNat
    let n := num / d
    (n, ((num - n * d) * 2 ^ p / d).toNat)

/-- 2^f scaled by 2^p for f / 2^p in [0, 1). -/
def pow2Fix (p f : Nat) : Nat := expFix p (f * ln2 p / 2 ^ p)

def exp2Fin (s : Bool) (m : Nat) (e : Int) : Nat × Nat :=
  if m = 0 then (0x3F800000, 0)
  else if e + (Nat.log2 m : Int) ≥ 12 then
    (if s then Fp.round .f32 0 false 1 (-4000) false else Fp.round .f32 0 false 1 4000 false)
  else
    let i := split s m e 1
    let whole : Bool := 0 ≤ e || m % 2 ^ (-e).toNat = 0
    if whole then Fp.round .f32 0 false 1 i.1 false
    else search (fun p =>
      let x := split s m e p
      agree false (pow2Fix p x.2) (slack p) (x.1 - p)) precisions

def log2Fin (m : Nat) (e : Int) : Nat × Nat :=
  let l := Nat.log2 m
  let k : Int := e + l
  if m = 2 ^ l then
    Fp.round .f32 0 (k < 0) k.natAbs 0 false
  else search (fun p =>
    let q := p + 32
    -- ln(m / 2^l) / ln 2, scaled by 2^p
    let v := twoAtanh q (m - 2 ^ l) (m + 2 ^ l) * 2 ^ p / ln2 q
    let t : Int := k * 2 ^ p + v
    agree (t < 0) t.natAbs (slack p) (-p)) precisions

/-- e^(-y) for y = m * 2^e > 0: a mantissa scaled by 2^p and an exponent. -/
def expNeg (m : Nat) (e : Int) (p : Nat) : Nat × Int :=
  let q := p + 32
  let l := ln2 q
  let y : Nat := if 0 ≤ e then m * 2 ^ (e.toNat + q) else m * 2 ^ q / 2 ^ (-e).toNat
  let n := y / l + 1
  (expFix q (n * l - y) / 2 ^ 32, -(n : Int))

/-- 1/(1 + t) or t/(1 + t) for t = v * 2^(n - p), scaled by 2^p. -/
def sigFin (s : Bool) (m : Nat) (e : Int) : Nat × Nat :=
  if m = 0 then (0x3F000000, 0)
  else if e + (Nat.log2 m : Int) ≥ 10 then
    (if s then Fp.round .f32 0 false 1 (-4000) false else (0x3F800000, flagNX))
  else search (fun p =>
    let t := expNeg m e p
    let k := (-t.2).toNat
    -- 1 + t, scaled by 2^(p + k)
    let d := 2 ^ (p + k) + t.1
    if s then agree false (t.1 * 2 ^ (p + k) / d) (slack p) (-(p : Int) - k)
    else agree false (2 ^ (2 * p + k) / d) (slack p) (-(p : Int))) precisions

def tanhFin (c : Nat) (s : Bool) (m : Nat) (e : Int) : Nat × Nat :=
  if m = 0 then (c, 0)
  else if e + (Nat.log2 m : Int) ≤ -14 then (c, if bits c 23 8 = 0 then flagUF + flagNX else flagNX)
  else if e + (Nat.log2 m : Int) ≥ 7 then (Fmt.f32.zero s + 0x3F800000, flagNX)
  else search (fun p =>
    let t := expNeg m (e + 1) p
    let k := (-t.2).toNat
    let d := 2 ^ (p + k) + t.1
    agree s ((2 ^ (p + k) - t.1) * 2 ^ p / d) (slack p) (-(p : Int))) precisions

def nanCase (c : Nat) : Nat × Nat := (Fmt.f32.qnan, if Fp.snan .f32 c then flagNV else 0)

/-- exp2, log2, sigmoid and tanh with their special cases (Table Special-function special cases). -/
def exp2 (c : Nat) : Nat × Nat :=
  match Fp.dec .f32 c with
  | .nan _ => nanCase c
  | .inf s => (if s then 0 else Fmt.f32.inf false, 0)
  | .fin s m e => exp2Fin s m e

def log2 (c : Nat) : Nat × Nat :=
  match Fp.dec .f32 c with
  | .nan _ => nanCase c
  | .inf s => if s then (Fmt.f32.qnan, flagNV) else (Fmt.f32.inf false, 0)
  | .fin s m e =>
    if m = 0 then (Fmt.f32.inf true, flagDZ) else if s then (Fmt.f32.qnan, flagNV) else log2Fin m e

def rcp (c : Nat) : Nat × Nat :=
  if Fp.isNan .f32 c then nanCase c else Fp.div .f32 0 0x3F800000 c

def rsq (c : Nat) : Nat × Nat :=
  match Fp.dec .f32 c with
  | .nan _ => nanCase c
  | .inf s => if s then (Fmt.f32.qnan, flagNV) else (0, 0)
  | .fin s m e =>
    if m = 0 then (Fmt.f32.inf s, flagDZ)
    else if s then (Fmt.f32.qnan, flagNV)
    else
      -- 1 / sqrt(m * 2^e), with e made even
      let m' := if e % 2 = 0 then m else 2 * m
      let e' := if e % 2 = 0 then e else e - 1
      let k := 2 * (Nat.log2 m' + 64)
      let x := 2 ^ (2 * k) / m'
      let r := Fp.isqrt x
      Fp.round .f32 0 false r (-(k : Int) - e' / 2) (!(r * r * m' == 2 ^ (2 * k)))

def sig (c : Nat) : Nat × Nat :=
  match Fp.dec .f32 c with
  | .nan _ => nanCase c
  | .inf s => (if s then 0 else 0x3F800000, 0)
  | .fin s m e => sigFin s m e

def tanh (c : Nat) : Nat × Nat :=
  match Fp.dec .f32 c with
  | .nan _ => nanCase c
  | .inf s => (Fmt.f32.zero s + 0x3F800000, 0)
  | .fin s m e => tanhFin c s m e

end Sfu

end Sys2Proof
end

