-- ==== Sys2Proof/Machine/Formats.lean ====
section
/-! DEFINITION. Formats.lean: the module's number formats, brick headers, tags, conversions and the noise of
stochastic rounding (ch. Number formats and bricks). A format is its element code of R184. -/

namespace Sys2Proof

/-! ### Format codes (R184) -/

def tyF64 : Nat := 0
def tyF32 : Nat := 1
def tyW16 : Nat := 2
def tyE8 : Nat := 3
def tyN4 : Nat := 4
def tyU4Z : Nat := 5
def tyT2 : Nat := 6
def tyG4 : Nat := 7

/-- Bytes of an unbricked element. -/
def elemSize (ty : Nat) : Nat := if ty = 0 then 8 else if ty = 1 then 4 else if ty = 2 then 2 else 1

/-- Bytes of a brick (R39). -/
def brickBytes (ty : Nat) : Nat := if ty = tyE8 then 256 else if ty = tyT2 then 64 else 128

/-- Bits of an element code inside a brick. -/
def codeBits (ty : Nat) : Nat := if ty = tyE8 then 8 else if ty = tyT2 then 2 else 4

/-! ### The brick header (R42) -/

def hdrE (h : Nat) : Nat := bits h 0 8
def hdrZp (h : Nat) : Nat := bits h 8 4
def hdrTag (h : Nat) : Nat := bits h 12 6
def hdrAllZero (h : Nat) : Bool := bit h 20
/-- The header with the fields the module writes. -/
def mkHdr (e zp tag : Nat) (clipped outlier allzero : Bool) : Nat :=
  e + zp * 2 ^ 8 + tag * 2 ^ 12 + b2n clipped * 2 ^ 18 + b2n outlier * 2 ^ 19 + b2n allzero * 2 ^ 20
/-- The header with another tag; reserved bits are written as 0 (R42, R49). -/
def reTag (h tag : Nat) : Nat := setBits (h % 2 ^ 21) 12 6 tag

/-- The sequence tag of a brick at package address `a` (R48). -/
def brickTag (a : Nat) : Nat :=
  let n := a / 64
  (List.range 6).foldl (fun t k => t ^^^ bits n (6 * k) 6) 0

/-- What a consumer finds in a header (R43): a fault status, or 0, and whether the brick reads as zero. -/
def checkHdr (h tag : Nat) : Nat × Bool :=
  if hdrE h = 255 then (0x0204, false)
  else if hdrTag h ≠ tag then (0x0201, false)
  else (0, hdrE h = 0 || hdrAllZero h)

/-- Byte and bit of element (r, c) within a brick (R39). -/
def elemPos (ty r c : Nat) : Nat × Nat :=
  if ty = tyE8 then (16 * r + c, 0)
  else if ty = tyT2 then (4 * r + c / 4, 2 * (c % 4))
  else (8 * r + c / 2, 4 * (c % 2))

/-- The 256 element codes of a brick's bytes, row-major. -/
def unpackBrick (ty : Nat) (b : Bytes) : List Nat :=
  (List.range 256).map fun i =>
    let p := elemPos ty (i / 16) (i % 16)
    bits ((b.getD p.1 0).toNat) p.2 (codeBits ty)

/-- The bytes of 256 element codes. -/
def packBrick (ty : Nat) (codes : List Nat) : Bytes :=
  let per := 8 / codeBits ty
  (List.range (brickBytes ty)).map fun j =>
    BitVec.ofNat 8 ((List.range per).foldl (fun a k => a + codes.getD (per * j + k) 0 * 2 ^ (codeBits ty * k)) 0)

/-! ### Decoding -/

/-- N4 magnitude in units of 0.5 (R33). -/
def n4Half (c : Nat) : Nat := [0, 1, 2, 3, 4, 6, 8, 12].getD (c % 8) 0
/-- G4 magnitude in units of 1/8 (R37). -/
def g4Eighth (c : Nat) : Nat := [0, 1, 2, 4, 8, 16, 32, 64].getD (c % 8) 0

/-- The integer a lane format decodes to, in its unit (R110); U4Z gives the raw code. -/
def laneInt (ty c : Nat) : Int :=
  if ty = tyN4 then (if bit c 3 then -(n4Half c : Int) else n4Half c)
  else if ty = tyU4Z then c
  else if ty = tyT2 then (if c = 1 then 1 else if c = 3 then -1 else 0)
  else (if bit c 3 then -(g4Eighth c : Int) else g4Eighth c)

/-- Exponent of two of the lane unit. -/
def laneUnit (ty : Nat) : Int := if ty = tyN4 then -1 else if ty = tyG4 then -3 else 0

/-- Value of an E8 code (R30). -/
def decE8 (c : Nat) : Fval :=
  let s := bit c 7
  let ex := bits c 3 4
  let fr := bits c 0 3
  if ex = 15 && fr = 7 then .nan false
  else if ex = 0 then .fin s fr (-9) else .fin s (8 + fr) ((ex : Int) - 10)

/-- An exact value times a power of two. -/
def Fval.scale (v : Fval) (k : Int) : Fval :=
  match v with
  | .fin s m e => .fin s m (e + k)
  | v => v

/-- An element of a bricked format under its header's exponent and zero point (R32-R38). -/
def decBricked (ty c e zp : Nat) : Fval :=
  let k : Int := (e : Int) - 127
  if ty = tyE8 then (decE8 c).scale k
  else
    let i : Int := if ty = tyU4Z then laneInt ty c - zp else laneInt ty c
    .fin (i < 0) i.natAbs (laneUnit ty + k)

/-- An unbricked element. -/
def decPlain (ty c : Nat) : Fval :=
  if ty = tyF64 then Fp.dec .f64 c else if ty = tyF32 then Fp.dec .f32 c
  else if ty = tyW16 then Fp.dec .w16 c else decE8 c

/-- A code of an IEEE format for the exact value that an element code `c` decodes to: overflow to infinity
(R53). The sign and payload of a NaN, which only E8 has here, are open (log 62). -/
def Fval.code (v : Fval) (f : Fmt) (c : Nat) : Nat × Nat :=
  match v with
  | .nan _ => (Fp.qnanOf f (Config.e8Nan c), 0)
  | .inf s => (f.inf s, 0)
  | .fin s m e => if m = 0 then (f.zero s, 0) else Fp.round f 0 s m e false

/-- An unbricked element decoded to F32 or F64: a NaN keeps its sign and payload (R53, R54). -/
def plainToF64 (ty c : Nat) : Nat :=
  if ty = tyF64 then c
  else if ty = tyF32 then Fp.widen c
  else if ty = tyW16 then Fp.widen (c * 2 ^ 16)
  else ((decE8 c).code .f64 c).1
def plainToF32 (ty c : Nat) : Nat :=
  if ty = tyF32 then c else if ty = tyW16 then c * 2 ^ 16 else ((decE8 c).code .f32 c).1

/-! ### Conversion (R54-R57) -/

/-- Comparison of two magnitudes m * 2^e and n * 2^g. -/
def cmpMag (m : Nat) (e : Int) (n : Nat) (g : Int) : Int :=
  Fp.cmpVal (.fin false m e) (.fin false n g)

/-- Nearest code of a table of rising magnitudes in units of 2^u: each boundary is twice the midpoint, a tie
goes to the lower code where `tieLow` says so. -/
def pickCode (m : Nat) (e : Int) (u : Int) : List (Nat × Bool) → Nat → Nat
  | [], k => k
  | (b, low) :: r, k =>
    let c := cmpMag m e b (u - 1)
    if c > 0 || (c = 0 && !low) then pickCode m e u r (k + 1) else k

/-- N4 boundaries, doubled midpoints in units of 0.5, with ties to the code whose bit 0 is 0. -/
def n4Bounds : List (Nat × Bool) :=
  [(1, true), (3, false), (5, true), (7, false), (10, true), (14, false), (20, true)]

/-- Rounds m * 2^e to the nearest integer, ties to even. -/
def nearInt (m : Nat) (e : Int) : Nat :=
  if 0 ≤ e then m * 2 ^ e.toNat
  else
    let d := 2 ^ (-e).toNat
    let q := m / d
    let r := m % d
    if 2 * r > d || (2 * r == d && q % 2 == 1) then q + 1 else q

/-- E8 magnitude code, saturating (R54, R55): the code and whether it is counted. -/
def e8Mag (m : Nat) (e : Int) : Nat × Bool :=
  if m = 0 then (0, false)
  else if cmpMag m e 448 0 > 0 then (0x7E, true)
  else
    let lead : Int := e + (Nat.log2 m : Int)
    let lsb : Int := max (lead - 3) (-9)
    let q := nearInt m (e - lsb)
    -- q < 16 of a binade whose units are 2^lsb
    (if q < 8 then q else ((lsb + 9).toNat * 8) + q, false)

def toE8 (v : Fval) (e : Int) : Nat × Bool :=
  match v with
  | .nan _ => (0x7F, false)
  | .inf s => (b2n s * 128 + 0x7E, true)
  | .fin s m g =>
    let r := e8Mag m (g + e)
    (b2n s * 128 + r.1, r.2)

/-- Conversion to W16, saturating or with overflow to infinity. -/
def toW16 (v : Fval) (ovf : Bool) : Nat × Bool :=
  match v with
  | .nan _ => (0x7FC0, false)
  | .inf s => (Fmt.w16.inf s, false)
  | .fin s m e =>
    if m = 0 then (Fmt.w16.zero s, false)
    else if !ovf && cmpMag m e 255 120 > 0 then (Fmt.w16.maxFin s, true)
    else ((Fp.round .w16 0 s m e false).1, false)

def toN4 (v : Fval) (k : Int) : Nat × Bool :=
  match v with
  | .nan _ => (0, true)
  | .inf s => (b2n s * 8 + 7, true)
  | .fin s m e =>
    let c := pickCode m (e + k) (-1) n4Bounds 0
    (if c = 0 then 0 else b2n s * 8 + c, cmpMag m (e + k) 6 0 > 0)

def toT2 (v : Fval) (k : Int) : Nat × Bool :=
  match v with
  | .nan _ => (0, true)
  | .inf s => (if s then 3 else 1, true)
  | .fin s m e =>
    (if cmpMag m (e + k) 1 (-1) > 0 then (if s then 3 else 1) else 0, cmpMag m (e + k) 1 0 > 0)

def toU4Z (v : Fval) (k : Int) (zp : Nat) : Nat × Bool :=
  match v with
  | .nan _ => (zp, true)
  | .inf s => (if s then 0 else 15, true)
  | .fin s m e =>
    -- v = x * 2^k + z, exactly
    let r := Fp.sumMag s m (e + k) false zp 0
    let negative := r.1 && r.2.1 ≠ 0
    if negative then (0, true)
    else if cmpMag r.2.1 r.2.2 15 0 > 0 then (15, true)
    else (nearInt r.2.1 r.2.2, false)

/-- floor(f * 65536) for f = (m * 2^e) / 2^g - 1 or f = m * 2^e. -/
def frac16 (m : Nat) (e : Int) : Nat :=
  if 0 ≤ e + 16 then m * 2 ^ (e + 16).toNat else m / 2 ^ (-(e + 16)).toNat

/-- Stochastic rounding to G4 (R58), with the element's 16-bit noise `u`. -/
def toG4 (v : Fval) (k : Int) (u : Nat) : Nat × Bool :=
  match v with
  | .nan _ => (0, true)
  | .inf s => (b2n s * 8 + 7, true)
  | .fin s m e =>
    let g := e + k
    if m = 0 then (0, false)
    else if cmpMag m g 8 0 > 0 then (b2n s * 8 + 7, true)
    else if cmpMag m g 1 (-3) < 0 then
      (if u < frac16 m (g + 3) then b2n s * 8 + 1 else 0, false)
    else
      let lead : Int := g + (Nat.log2 m : Int)          -- lo = 2^lead, -3 to 3
      let f := frac16 (m - 2 ^ Nat.log2 m) (-(Nat.log2 m : Int))
      let up : Bool := lead < 3 && u < f
      (b2n s * 8 + (lead + 4).toNat + b2n up, false)

/-- Conversion to a bricked target under exponent `e` and zero point (R54, R58). -/
def toBricked (ty : Nat) (v : Fval) (e zp u : Nat) : Nat × Bool :=
  let k : Int := 127 - (e : Int)
  if ty = tyE8 then toE8 v k else if ty = tyN4 then toN4 v k else if ty = tyU4Z then toU4Z v k zp
  else if ty = tyT2 then toT2 v k else toG4 v k u

/-- The zero code of a brick position (R40). -/
def zeroCode (ty zp : Nat) : Nat := if ty = tyU4Z then zp else 0

/-! ### Noise (R59, R60) -/

def mix (z : Nat) : Nat :=
  let m := 2 ^ 64
  let z := z ^^^ (z / 2 ^ 30)
  let z := z * 0xBF58476D1CE4E5B9 % m
  let z := z ^^^ (z / 2 ^ 27)
  let z := z * 0x94D049BB133111EB % m
  z ^^^ (z / 2 ^ 31)

def noise16 (seed t n i : Nat) : Nat :=
  let m := 2 ^ 64
  let c := (t % 2 ^ 24 * 2 ^ 40 + i % 2 ^ 40) % m
  let h := mix ((c + 0x9E3779B97F4A7C15) % m)
  let h := mix (h ^^^ (n % m))
  let h := mix (h ^^^ (seed % m))
  h / 2 ^ 48

end Sys2Proof
end

