-- ==== Sys2Proof/Machine/Operands.lean ====
section
/-! DEFINITION. Operands.lean: tensor descriptors, where their elements lie, their validation, and reading and
writing the positions of a block (ch. Tensor descriptors). -/

namespace Sys2Proof

/-! ### The descriptor (R183-R190) -/

/-- A tensor descriptor's fields. -/
structure Desc where
  rank : Nat
  ty : Nat
  brick : Bool
  oob : Bool
  padw : Bool
  legacy : Bool
  ovf : Bool
  sums : Nat
  dense : Nat
  fill : Nat
  base : Nat
  sbase : Nat
  omap : Nat
  sumDist : Nat
  size : List Nat
  stride : List Int
  deriving DecidableEq, Repr

/-- The descriptor in a slot's 64 bytes (R183). -/
def Desc.ofNat (n : Nat) : Desc where
  rank := bits n 0 3
  ty := bits n 4 4
  brick := bit n 8
  oob := bit n 9
  padw := bit n 10
  legacy := bit n 11
  ovf := bit n 12
  sums := bits n 13 2
  dense := bits n 16 6
  fill := bits n 32 32
  base := bits n 64 40
  sbase := bits n 104 40
  omap := bits n 144 40
  sumDist := bits n 192 32
  size := (List.range 6).map fun k => bits n (224 + 24 * k) 24
  stride := (List.range 6).map fun k => signed (bits n (368 + 24 * k) 24) 24

namespace Desc

def unit (d : Desc) : Nat := if d.brick then brickBytes d.ty else elemSize d.ty
def sizeOf (d : Desc) (k : Nat) : Nat := nth 0 d.size k
/-- Extent of a dimension: bricks in dimensions 0 and 1 of a bricked tensor (R188). -/
def extent (d : Desc) (k : Nat) : Nat := if d.brick && k < 2 then ceilDiv (d.sizeOf k) 16 else d.sizeOf k

/-- Step of a dimension: bytes, or bricks of a bricked tensor (R188). -/
def step (d : Desc) : Nat → Int
  | 0 =>
    if d.legacy then nth 0 d.stride 0
    else if !d.brick then d.unit
    else if bit d.dense 0 then 1 else nth 0 d.stride 0
  | k + 1 =>
    if d.legacy then nth 0 d.stride (k + 1)
    else if bit d.dense (k + 1) then d.extent k * d.step k
    else nth 0 d.stride (k + 1) * (if d.brick then 1 else 64)

/-- Brick offset of an index vector (R189). -/
def offset (d : Desc) (i : List Int) : Int :=
  (List.range d.rank).foldl (fun a k => a + (if k < 2 then nth 0 i k / 16 else nth 0 i k) * d.step k) 0

/-- Byte address of an unbricked element (R189). -/
def addr (d : Desc) (i : List Int) : Int :=
  (List.range d.rank).foldl (fun a k => a + nth 0 i k * d.step k) d.base

/-- Addresses of a brick's elements, header and sum-stream entry at a brick offset (R189). -/
def brickAddr (d : Desc) (off : Int) : Nat := (d.base + off * brickBytes d.ty).toNat
def hdrAddr (d : Desc) (off : Int) : Nat := (d.sbase + 4 * off).toNat
def sumAddr (d : Desc) (off : Int) : Nat := (d.sbase + d.sumDist + 32 * off).toNat

/-- A position is in bounds (R197). -/
def inb (d : Desc) (i : List Int) : Bool :=
  (List.range d.rank).all fun k => 0 ≤ nth 0 i k && nth 0 i k < d.sizeOf k
/-- The brick of a position holds in-bounds elements. -/
def inBrick (d : Desc) (i : List Int) : Bool :=
  (List.range d.rank).all fun k =>
    let x := if k < 2 then nth 0 i k / 16 else nth 0 i k
    0 ≤ x && x < d.extent k
/-- Each coordinate clamped into the tensor. -/
def clamp (d : Desc) (i : List Int) : List Int :=
  (List.range d.rank).map fun k => max 0 (min (nth 0 i k) (d.sizeOf k - 1))
/-- Padded size of a dimension (R199). -/
def padded (d : Desc) (k : Nat) : Nat := if k < 2 then 16 * ceilDiv (d.sizeOf k) 16 else d.sizeOf k
/-- A padding position, given that it is not in bounds (R199). -/
def inPad (d : Desc) (i : List Int) : Bool :=
  (List.range d.rank).all fun k => 0 ≤ nth 0 i k && nth 0 i k < d.padded k

/-- The element code of a position beyond the edge (R186). -/
def fillCode (d : Desc) : Nat :=
  if d.brick then bits d.fill 16 (codeBits d.ty)
  else if d.ty = tyF64 then Fp.widen d.fill
  else d.fill % 2 ^ (8 * elemSize d.ty)

/-! ### Footprint (R192) and the non-overlap rule (R202) -/

/-- Positions a dimension spans for the footprint and the overlap rule. -/
def span (d : Desc) (write : Bool) (k : Nat) : Nat :=
  if d.brick then d.extent k else if write && d.padw && !d.legacy then d.padded k else d.sizeOf k

/-- Lowest and highest offset in steps. -/
def reach (d : Desc) (write : Bool) : Int × Int :=
  (List.range d.rank).foldl (fun r k =>
    let x := ((d.span write k : Int) - 1) * d.step k
    if x < 0 then (r.1 + x, r.2) else (r.1, r.2 + x)) (0, 0)

/-- In-bounds rows or columns of the brick that lies highest along dimension `k` < 2. -/
def topCount (d : Desc) (k : Nat) : Nat :=
  if d.extent k = 1 || 0 < d.step k then d.sizeOf k - 16 * (d.extent k - 1) else 16

/-- Last byte of the highest brick that the footprint takes in: of its in-bounds elements, or of the whole brick
where the padding positions count (R192). -/
def topByte (d : Desc) (write : Bool) : Nat :=
  if write && d.padw then d.unit - 1 else (elemPos d.ty (d.topCount 1 - 1) (d.topCount 0 - 1)).1

/-- Byte ranges of the elements, headers and sum-stream entries: first and last byte. -/
def footprint (d : Desc) (write : Bool) : List (Int × Int) :=
  let r := d.reach write
  if d.brick then
    let u : Int := d.unit
    let s : Int := d.sbase + d.sumDist
    [((d.base : Int) + r.1 * u, (d.base : Int) + r.2 * u + d.topByte write),
     ((d.sbase : Int) + 4 * r.1, (d.sbase : Int) + 4 * r.2 + 3)] ++
    (if d.sums = 0 then [] else [(s + 32 * r.1, s + 32 * r.2 + 31)])
  else [((d.base : Int) + r.1, (d.base : Int) + r.2 + d.unit - 1)]

def nonOverlapAux : Nat → List (Nat × Nat) → Bool
  | _, [] => true
  | sp, (s, n) :: r => if s < sp then false else nonOverlapAux (sp + (n - 1) * s) r

/-- The non-overlap rule (R202). -/
def nonOverlap (d : Desc) : Bool :=
  let l := (List.range d.rank).map fun k =>
    ((d.step k * (if d.brick then (d.unit : Int) else 1)).natAbs, d.span true k)
  nonOverlapAux d.unit (Machine.sortPairs (l.filter fun p => 1 < p.2))

/-- Row-major linear index of an index vector in the logical sizes (R60). -/
def linear (d : Desc) (i : List Int) : Nat :=
  ((List.range d.rank).foldl (fun (p : Nat × Nat) k =>
    (p.1 + (nth 0 i k).toNat * p.2, p.2 * d.sizeOf k)) (0, 1)).1 % 2 ^ 40

/-- Brick offset in the dense bricked image of an unbricked tensor (R79). -/
def image (d : Desc) (i : List Int) : Int :=
  ((List.range d.rank).foldl (fun (p : Int × Int) k =>
    if k < 2 then (p.1 + nth 0 i k / 16 * p.2, p.2 * ceilDiv (d.sizeOf k) 16)
    else (p.1 + nth 0 i k * p.2, p.2 * d.sizeOf k)) (0, 1)).1

end Desc

/-! ### Regions (R15, R194) -/

namespace Machine

inductive Region where
  | md
  | staging
  | operand (cl : ClusterId)
  | chains (cl : ClusterId) (t : Nat)
  | acc (cl : ClusterId) (t : Nat)
  | ue (die : Nat)
  deriving DecidableEq, Repr

/-- The region that holds one address. -/
def regionAt (p : Part) (a : Nat) : Option Region :=
  if a < p.mds * 0x4000_0000 then some .md
  else if stagingBase ≤ a && a < stagingBase + p.stGranules * 0x400_0000 then some .staging
  else if 0x10_0000_0000 ≤ a && a < 0x10_0000_0000 + p.cds * 0x4000_0000 then
    let die := (a - 0x10_0000_0000) / 0x4000_0000
    let o := (a - 0x10_0000_0000) % 0x4000_0000
    if o < 0x800_0000 then
      let c := o / 0x80_0000
      let w := o % 0x80_0000
      if w < 0x70_0000 then some (.operand (16 * die + c))
      else if w < 0x70_0600 then some (.chains (16 * die + c) ((w - 0x70_0000) / 0x200))
      else none
    else if o < 0x800_0000 + 48 * 0x40_0000 then
      let k := (o - 0x800_0000) / 0x40_0000
      some (.acc (16 * die + k / 3) (k % 3))
    else if 0x1800_0000 ≤ o && o < 0x1900_0000 then some (.ue die)
    else none
  else none

/-- The one region that a byte range lies in. A chain-table range may span the three tables of a cluster. -/
def regionOf (p : Part) (lo hi : Int) : Option Region :=
  if lo < 0 then none
  else
    match regionAt p lo.toNat, regionAt p hi.toNat with
    | some (.chains c t), some (.chains c' _) => if c = c' then some (.chains c t) else none
    | some x, some y => if x = y then some x else none
    | _, _ => none

/-- Who uses a descriptor. -/
inductive Agent where
  | mover (n : Nat)
  | drain
  | vector
  | array
  deriving DecidableEq, Repr

/-- The stage that a compute die belongs to, 16 for none. -/
def State.stageOfDie (s : State) (die : Nat) : Nat :=
  ((List.range 16).find? fun g =>
    match (s.stage g).cfg with
    | some c => c.dies.contains die
    | none => false).getD 16

/-- Dies of a stage. -/
def State.stageDies (s : State) (g : Nat) : List Nat :=
  match (s.stage g).cfg with
  | some c => c.dies
  | none => []

/-- Memory and compute dies whose memory operands touch (R490). -/
def Part.diesOf (p : Part) (l : List Desc) : List Nat :=
  (l.flatMap fun d => (d.footprint true).flatMap fun r =>
    let lo := r.1.toNat / 0x4000_0000
    if r.2 < (stagingBase : Int) then (List.range (r.2.toNat / 0x4000_0000 + 1 - lo)).map fun k => p.dieOfAddr ((lo + k) * 0x4000_0000)
    else []).eraseDups

/-- Granule kinds whose access lets the stage's agents read, or write (R368). -/
def kindReads (k : Nat) : Bool := k ∈ [1, 2, 3, 4, 5, 6, 7, 9]
def kindWrites (k : Nat) : Bool := k ∈ [3, 4, 5, 6, 8]

/-- Kind a stage's memory plan gives a granule of a space, 0 for none. -/
def State.granuleKind (s : State) (g space idx : Nat) : Nat :=
  match (s.stage g).cfg with
  | some c =>
    match c.runs.find? fun r => r.space = space && r.first ≤ idx && idx < r.first + r.count with
    | some r => r.kind
    | none => 0
  | none => 0

/-- Every granule of a byte range is given to the stage for the access (R369). -/
def State.granulesOk (s : State) (g : Nat) (write : Bool) (lo hi : Nat) : Bool :=
  let sp := if stagingBase ≤ lo then 1 else 0
  let b := if stagingBase ≤ lo then stagingBase else 0
  let i := (lo - b) / 0x400_0000
  let j := (hi - b) / 0x400_0000
  (List.range (j + 1 - i)).all fun k =>
    let kd := s.granuleKind g sp (i + k)
    if write then kindWrites kd else kindReads kd

/-- Step 6 of R191: the footprint lies in one region that the agent and the stage may address. -/
def State.reachable (s : State) (cl : ClusterId) (ag : Agent) (d : Desc) (write : Bool)
    (ranges : List (Int × Int)) : Bool :=
  let g := s.stageOfDie (cl / 16)
  let dies := s.stageDies g
  let mover : Bool := match ag with
    | .mover _ => true
    | _ => false
  match ranges.map fun r => regionOf s.dev.part r.1 r.2 with
  | some reg :: rest =>
    rest.all (· == some reg) &&
    (match reg with
     | .md | .staging =>
       (mover || ag == .drain) && ranges.all fun r => s.granulesOk g write r.1.toNat r.2.toNat
     | .operand c => if mover || ag == .drain then dies.contains (c / 16) else c == cl
     | .chains c _ => mover && dies.contains (c / 16) && !d.brick && d.ty == tyF64
     | .acc c _ =>
       (if mover then dies.contains (c / 16) else ag == .vector && c == cl) && !d.brick && d.ty == tyF32
     | .ue n => mover && n == cl / 16)
  | _ => false

/-- Validation of one descriptor, steps 1 to 6 of R191: the status, 0 when every check passes. For a clip
mask, whose SBASE is ignored (R241), only the element range counts. A legacy STRIDE_k that is no multiple of the
element size, for which R195 names no status, fails with DESC_ALIGN as a misaligned BASE does (DESIGN CHOICE, log
80). -/
def State.validate (s : State) (cl : ClusterId) (ag : Agent) (write mask : Bool) (d : Desc) : Nat :=
  let badType := 8 ≤ d.ty || (d.brick && d.ty < 3) || (!d.brick && 4 ≤ d.ty)
  let badSums := d.sums = 3 || (d.sums ≠ 0 && !(d.ty = tyN4 || d.ty = tyU4Z || d.ty = tyT2))
  let badMap := if d.ty = tyG4 then 2 ^ 24 ≤ d.omap else d.omap ≠ 0 && !(d.ty = tyN4 || d.ty = tyT2)
  let gap := !d.brick && !d.legacy && (List.range d.rank).any fun k =>
    1 ≤ k && bit d.dense k && (List.range k).any fun j => 1 ≤ j && !bit d.dense j
  if badType || (d.legacy && d.brick) || badSums || badMap || (d.brick && d.fill % 256 = 255) then 0x0104
  else if d.rank = 0 || d.rank = 7 || (d.brick && d.rank = 1) || (List.range d.rank).any (fun k => d.sizeOf k = 0) then
    0x0103
  else if d.base % (if d.legacy then d.unit else 64) ≠ 0 || (d.brick && !mask && d.sbase % 4 ≠ 0) ||
      (d.legacy && (List.range d.rank).any fun k => nth 0 d.stride k % (d.unit : Int) ≠ 0) ||
      (d.sums ≠ 0 && !mask && (d.sbase + d.sumDist) % 32 ≠ 0) ||
      ((d.ty = tyN4 || d.ty = tyT2) && d.omap % 64 ≠ 0) || gap then 0x0101
  else if write && d.legacy then 0x0105
  else if write && !d.nonOverlap then 0x0102
  else
    let r := d.footprint write
    if s.reachable cl ag d write (if mask then r.take 1 else r) then 0 else 0x0104

/-! ### Registers and blocks (R230, R231) -/

/-- Signed coordinates of an origin group that starts at register `m`. -/
def originOf (c : Cluster) (m rank : Nat) : List Int :=
  (List.range rank).map fun k => signed (bits (c.sreg (m + k / 2)).toNat (32 * (k % 2)) 32) 32
/-- Unsigned extents of an extent group. -/
def extentOf (c : Cluster) (m rank : Nat) : List Nat :=
  (List.range rank).map fun k => bits (c.sreg (m + k / 2)).toNat (32 * (k % 2)) 32
/-- The register group runs past s31. -/
def groupPast (m rank : Nat) : Bool := 32 < m + ceilDiv rank 2

/-- Index vectors of a block of the given extents, dimension 0 fastest. -/
def positions : List Nat → List (List Nat)
  | [] => [[]]
  | n :: r => (positions r).flatMap fun t => (List.range n).map fun i => i :: t

/-- Sum of an origin and an index vector, whose missing coordinates are 0. -/
def plus (o : List Int) (i : List Nat) : List Int := o.zipIdx.map fun p => p.1 + ((nth 0 i p.2 : Nat) : Int)

/-! ### Poison (R472) -/

/-- A line of a byte range is poisoned. -/
def State.poisoned (s : State) (a n : Nat) : Bool := s.poison.any fun l => l < a + n && a < l + 64

/-- An error log entry of a line that a write of a byte range covers as a whole. -/
def LogEntry.covered (e : LogEntry) (a n : Nat) : Bool :=
  (e.source = 1 || e.source = 5 || e.source = 6) && !e.rewritten && a ≤ e.addr && e.addr + 64 ≤ a + n

/-- A write of a byte range: whole lines in it lose their poison (R472), and the error logs note that they have been rewritten
(R479). -/
def State.unpoison (s : State) (a n : Nat) : State :=
  let s := { s with poison := s.poison.filter fun l => l < a || a + n < l + 64 }
  if s.dies.any fun d => d.2.log.any (·.covered a n) then
    { s with dies := s.dies.map fun d => (d.1, { d.2 with log := d.2.log.map fun e => if e.covered a n then { e with rewritten := true } else e }) }
  else s

/-- A copy of `n` bytes between line addresses carries poison with it: a line of the destination is poisoned as that of the
source is. -/
def State.carryPoison (s : State) (src dst n : Nat) : State :=
  let hit := (s.poison.filter fun l => src ≤ l && l < src + n).map fun l => l - src + dst
  let s := s.unpoison dst n
  { s with poison := hit ++ s.poison.filter fun l => !hit.contains l }

/-! ### Reading a position (R43, R197) -/

/-- What a read of one position delivers: a status, the element code, and its brick's header fields. -/
structure Cell where
  st : Nat
  code : Nat
  e : Nat
  zp : Nat
  zero : Bool
  deriving DecidableEq, Repr

/-- The channels of an outlier map (R88). -/
def State.mapChannels (s : State) (a : Nat) : List Nat :=
  (List.range (s.readLE a 2)).map fun j => s.readLE (a + 0x40 + 4 * j) 4

/-- A line of an outlier map is poisoned. -/
def State.mapPoisoned (s : State) (a : Nat) : Bool := s.poisoned a (64 + 4 * s.readLE a 2)

/-- One in-bounds position. Outlier channels of a flagged weight brick read as zero (R46). -/
def State.stored (s : State) (d : Desc) (i : List Int) : Cell :=
  if d.brick then
    let off := d.offset i
    let a := d.brickAddr off
    let h := s.readLE (d.hdrAddr off) 4
    let r := checkHdr h (brickTag a)
    let p := elemPos d.ty (nth 0 i 1 % 16).toNat (nth 0 i 0 % 16).toNat
    let mapped := (d.ty = tyN4 || d.ty = tyT2) && d.omap ≠ 0 && bit h 19
    let st := if s.poisoned (d.hdrAddr off) 4 || s.poisoned (a + p.1) 1 || (mapped && s.mapPoisoned d.omap) then 0x0702 else r.1
    let code := bits (s.readByte (a + p.1)).toNat p.2 (codeBits d.ty)
    let out := mapped && (s.mapChannels d.omap).contains (nth 0 i 1).toNat
    ⟨st, if out then 0 else code, hdrE h, hdrZp h, r.2⟩
  else
    let a := (d.addr i).toNat
    match regionAt s.dev.part a with
    | some (.chains cl t) =>
      ⟨if s.poisoned a 8 then 0x0702 else 0, (((s.cluster cl).arr t).chain (a / 8 % 64)).word, 127, 0, false⟩
    | _ => ⟨if s.poisoned a d.unit then 0x0702 else 0, s.readLE a d.unit, 127, 0, false⟩

/-- One position of a block (R197). -/
def State.cell (s : State) (d : Desc) (i : List Int) : Cell :=
  if d.inb i then s.stored d i
  else if d.oob then s.stored d (d.clamp i)
  else if d.brick then
    if d.inBrick i then
      let off := d.offset i
      let h := s.readLE (d.hdrAddr off) 4
      let r := checkHdr h (brickTag (d.brickAddr off))
      ⟨if s.poisoned (d.hdrAddr off) 4 then 0x0702 else r.1, d.fillCode, hdrE h, hdrZp h, r.2⟩
    else ⟨0, d.fillCode, bits d.fill 0 8, bits d.fill 8 4, bits d.fill 0 8 = 0⟩
  else ⟨0, d.fillCode, 127, 0, false⟩

/-- A reserved T2 code that a decode counts (R36). -/
def Cell.reserved (d : Desc) (c : Cell) : Bool := d.ty = tyT2 && c.code = 2 && !c.zero

/-- First position of the brick that holds a position. -/
def brickStart (i : List Int) : List Int := i.zipIdx.map fun p => if p.2 < 2 then p.1 / 16 * 16 else p.1

/-- Reserved codes that an array or vector engine decodes when it reads the brick at a start position: it decodes
every element (R36). -/
def State.brickReserved (s : State) (d : Desc) (i0 : List Int) : Nat :=
  (List.range 256).countP fun p => (s.cell d (plus i0 [p % 16, p / 16])).reserved d

/-- Reserved codes that a vector engine decodes when it reads a block (R36): every element of each brick that it reads,
stored or synthesized (R197), up to the position that stops the read (R205). -/
def State.blockReserved (s : State) (d : Desc) (o : List Int) (ext : List Nat) : Nat :=
  if d.ty ≠ tyT2 then 0
  else
    let is := ((positions ext).map (plus o)).takeWhile fun i => (s.cell d i).st = 0
    ((is.map brickStart).eraseDups.map (s.brickReserved d)).sum

/-- The cell decoded to F32 under a rounding attribute, with the flags an engine raises (R53, R533). -/
def Cell.f32 (d : Desc) (rm : Nat) (c : Cell) : Nat × Nat :=
  if d.brick then
    if c.zero then (0, 0)
    else
      let r := (decBricked d.ty c.code c.e c.zp).code .f32 c.code
      (r.1, if bit r.2 2 then flagOF else 0)
  else if d.ty = tyF64 then Fp.conv .f64 .f32 rm c.code
  else (plainToF32 d.ty c.code, 0)

/-- The cell decoded to F64. -/
def Cell.f64 (d : Desc) (c : Cell) : Nat :=
  if d.brick then if c.zero then 0 else ((decBricked d.ty c.code c.e c.zp).code .f64 c.code).1
  else plainToF64 d.ty c.code

/-- The code of an unbricked destination for an F32 value, or for an F64 value when `wide` (R54, R533), with
IEEE flags for a rounding to F32. -/
def encodePlain (ty : Nat) (ovf wide : Bool) (rm x : Nat) : Nat × Nat :=
  let v := if wide then Fp.dec .f64 x else Fp.dec .f32 x
  if ty = tyF64 then (if wide then x else Fp.widen x, 0)
  else if ty = tyF32 then (if wide then Fp.conv .f64 .f32 rm x else (x, 0))
  else if ty = tyW16 then ((toW16 v ovf).1, 0)
  else ((toE8 v 0).1, 0)

/-! ### Writing -/

/-- Writes the bytes of one unbricked element. A write of a chain record follows R128. -/
def State.putRaw (s : State) (a n code : Nat) : State :=
  match regionAt s.dev.part a with
  | some (.chains cl t) =>
    let c := s.cluster cl
    s.setCluster cl (c.setArr t ((c.arr t).writeRecord (s.windowed cl t) (a / 8 % 64) code))
  | _ => (s.writeLE a n code).unpoison a n

/-- Writes one unbricked position with an element code; the second part counts a dropped position (R199). -/
def State.putElem (s : State) (d : Desc) (i : List Int) (code : Nat) : State × Nat :=
  if d.inb i then (s.putRaw (d.addr i).toNat d.unit code, 0)
  else if d.inPad i then (if d.padw then s.putRaw (d.addr i).toNat d.unit d.fillCode else s, 0)
  else (s, 1)

/-- Clears the poison of whole lines inside the runs of a written block. -/
def State.clearRows (s : State) (d : Desc) (o : List Int) (ext : List Nat) : State :=
  if d.brick || s.poison.isEmpty then s
  else
    (positions (ext.drop 1)).foldl (fun s t =>
      let i := plus o (0 :: t)
      let n := min (nth 0 ext 0) ((d.sizeOf 0 : Int) - nth 0 o 0).toNat
      if d.inb i then s.unpoison (d.addr i).toNat (n * d.unit) else s) s

/-- Sums of a brick's codes in a role (R82): over the columns of each row, or over the rows of each column. -/
def brickSums (ty role : Nat) (codes : List Nat) : List Int :=
  (List.range 16).map fun k =>
    (List.range 16).foldl (fun a j =>
      a + laneInt ty (nth 0 codes (if role = 1 then 16 * k + j else 16 * j + k))) 0

/-- The codes of a brick as they decode: the zero code throughout where its header makes it read as zero (R43, R82). -/
def sumCodes (ty h : Nat) (codes : List Nat) : List Nat :=
  if (checkHdr h (hdrTag h)).2 then codes.map fun _ => zeroCode ty (hdrZp h) else codes

/-- Another store to a brick that vector stores of its cluster are assembling: what is assembled is lost, and until
16 rows are stored one after the other the brick's values are open (R156). -/
def State.breakAsm (s : State) (a : Nat) : State :=
  match regionAt s.dev.part a with
  | some (.operand cl) =>
    let c := s.cluster cl
    let lost : Assembly := ⟨a, 0, true, List.replicate 256 none, 0, 0⟩
    if c.asm.any (·.addr = a) then
      let asm := c.asm.filterMap fun e =>
        if e.addr ≠ a then some e else if e.rows = 2 ^ 16 - 1 then none else some lost
      s.setCluster cl { c with asm := asm }
    else s
  | _ => s

/-- Writes a brick: element bytes, header with the tag of its address, and its sum-stream entry when given. -/
def State.putBrick (s : State) (d : Desc) (off : Int) (hdr : Nat) (codes : List Nat) (sums : Option (List Int)) : State :=
  let a := d.brickAddr off
  let s := ((s.breakAsm a).writeBytes a (packBrick d.ty codes)).unpoison a d.unit
  let s := s.writeLE (d.hdrAddr off) 4 (reTag hdr (brickTag a))
  match sums with
  | some l => s.writeBytes (d.sumAddr off) (l.flatMap fun x => toBytes 2 (unsigned x 16))
  | none => s

/-! ### Counters and events -/

/-- Sets an EVT bit; EVT_VECTOR is due when EVT_IEN is 1 (R412). -/
def State.event (s : State) (k : Nat) : State :=
  if s.host.evt.getLsbD k then s
  else { s with host := { s.host with evt := s.host.evt ||| 1#6 <<< k, evtMsg := s.host.evtMsg || s.host.evtIen } }

/-- Adds to the drop counter of a writing agent: 0 and 1 movers, 2 drain units, 3 vector engine (R199, R218). -/
def State.addDrops (s : State) (die agent n : Nat) : State :=
  let d := s.die die
  let r := satAdd 16 (nth 0 d.drops agent) n
  if n = 0 then s
  else s.setDie die { d with drops := d.drops.set agent r.1
                             descOvf := d.descOvf.set agent (nth false d.descOvf agent || r.2) }

/-- Adds to CORRECTABLE of a die's ERR_DIE, which every event that the counters of its ERRLOG_READ header count adds to (R412,
R481; that it is CORRECTABLE is a DESIGN CHOICE, log 42). A change of the error summary sets EVT.ERROR. -/
def State.addSummary (s : State) (die n : Nat) : State :=
  let d := s.die die
  let h := satAdd 16 d.hostCorr n
  let s' := s.setDie die { d with hostCorr := h.1, hostCorrOvf := d.hostCorrOvf || h.2 }
  if h.1 = d.hostCorr && (!h.2 || d.hostCorrOvf) then s' else s'.event 1

/-- Adds decodes of reserved T2 codes to FORMAT_RESERVED and ERR_DIE (R36, R481, R482). -/
def State.addReserved (s : State) (die n : Nat) : State :=
  let d := s.die die
  let r := satAdd 32 d.formatReserved n
  if n = 0 then s
  else
    let s' := s.setDie die { d with formatReserved := r.1, ovf := d.ovf.set 2 (nth false d.ovf 2 || r.2) }
    (if r.2 && !nth false d.ovf 2 then s'.event 1 else s').addSummary die n

/-- Records a descriptor or pairing fault in DESC_CTL (R206). -/
def State.descFault (s : State) (cl agent st : Nat) : State :=
  let recorded := st ∈ [0x0101, 0x0102, 0x0103, 0x0104, 0x0105, 0x0201, 0x0204, 0x0205, 0x0501]
  if recorded then
    s.setDie (cl / 16) { s.die (cl / 16) with lastFault := st, lastCluster := cl % 16, lastAgent := agent }
  else s

end Machine

end Sys2Proof
end

