-- ==== Sys2Proof/Machine/Quantizer.lean ====
section
/-! DEFINITION. Quantizer.lean: costume images and group-table entries as drains and quantizers read them, the
quantizer record, the choice of exponent and zero point, and the quantizer (ch. Quantization, R255-R260, R274). -/

namespace Sys2Proof.Machine

/-! ### Costume images (R255-R260) and group-table entries (R274) -/

/-- A group-table entry as a drain or quantizer uses it. `image` 0 stands for no costume. -/
structure Grp where
  handle : Nat
  tune : Bool
  valid : Nat
  image : Nat
  gbuf : Nat
  deriving DecidableEq, Repr

/-- What stands for the entry where the table is not read: every row is valid, and no costume applies. -/
def Grp.whole : Grp := ⟨0xFFFFFFFF, false, 16, 0, 0⟩

def State.grp (s : State) (a : Nat) : Grp :=
  let h := s.readLE a 4
  let w := s.readLE (a + 4) 4
  ⟨h, bit w 9, bits w 0 5, if h = 0xFFFFFFFF then 0 else s.readLE (a + 8) 5, s.readLE (a + 0x18) 5⟩

/-- Size in bytes and address of a vector parameter of an image. -/
def State.paramSize (s : State) (img : Nat) : Nat := if bits (s.readLE (img + 4) 4) 16 2 = 0 then 1 else 2
def State.paramAddr (s : State) (img n : Nat) : Nat := img + s.readLE (img + 0x20) 4 + s.paramSize img * n

/-- A vector parameter of an image, decoded exactly to F32. -/
def State.param (s : State) (img n : Nat) : Nat :=
  if s.paramSize img = 1 then plainToF32 tyE8 (s.readLE (s.paramAddr img n) 1)
  else plainToF32 tyW16 (s.readLE (s.paramAddr img n) 2)

/-- Parameter number of element `n` of the vector whose parameter number stands at `off` of a 16-byte table
entry: none beyond the table, where the costume does not hold it, and beyond its length (R259). -/
def State.vecIdx (s : State) (img tab count idx off n : Nat) : Option Nat :=
  let a := img + s.readLE (img + tab) 4 + 16 * idx
  let p := s.readLE (a + off) 4
  if img = 0 || count ≤ idx || p = 0xFFFFFFFF || s.readLE (a + 8) 3 ≤ n then none else some (p + n)

def State.sOutIdx (s : State) (img op n : Nat) : Option Nat := s.vecIdx img 0x18 (s.readLE (img + 0x10) 2) op 0 n
def State.biasIdx (s : State) (img op n : Nat) : Option Nat := s.vecIdx img 0x18 (s.readLE (img + 0x10) 2) op 4 n
def State.sInIdx (s : State) (img q c : Nat) : Option Nat := s.vecIdx img 0x1C (s.readLE (img + 0x12) 2) q 0 c
def State.sOut (s : State) (img op n : Nat) : Option Nat := (s.sOutIdx img op n).map (s.param img)
def State.bias (s : State) (img op n : Nat) : Option Nat := (s.biasIdx img op n).map (s.param img)
def State.sIn (s : State) (img q c : Nat) : Option Nat := (s.sInIdx img q c).map (s.param img)

/-- Parameter number of a costume's threshold for a quantizer, where it owns one (R260). -/
def State.alphaIdx (s : State) (img q : Nat) : Option Nat :=
  let p := s.readLE (img + s.readLE (img + 0x1C) 4 + 16 * q + 4) 4
  if img = 0 || s.readLE (img + 0x12) 2 ≤ q || p = 0xFFFFFFFF then none else some p

def State.alphaOf (s : State) (img q : Nat) : Option Nat := (s.alphaIdx img q).map (s.param img)

/-! ### The quantizer record (R64-R66) -/

structure QRec where
  addr : Nat
  alpha : Nat
  outEn : Bool
  maskEn : Bool
  sumEn : Bool
  cSin : Bool
  cAlpha : Bool
  target : Nat
  qindex : Nat
  mask : Nat
  side : Nat
  omap : Nat
  res0 : Bool                    -- some RES0 field holds a 1
  deriving DecidableEq, Repr

def State.qrec (s : State) (a : Nat) : QRec :=
  let w := s.readLE (a + 4) 4
  { addr := a, alpha := s.readLE a 4, outEn := bit w 10, maskEn := bit w 9, sumEn := bit w 8, cSin := bit w 7,
    cAlpha := bit w 6, target := bits w 0 4, qindex := s.readLE (a + 8) 2, mask := s.readLE (a + 0x10) 5,
    side := s.readLE (a + 0x18) 5, omap := s.readLE (a + 0x20) 5,
    res0 := bits w 11 21 ≠ 0 || bits w 4 2 ≠ 0 || s.readLE (a + 0x0A) 6 ≠ 0 || s.readLE (a + 0x28) 8 ≠ 0 ||
      4 ≤ s.readLE (a + 0x38) 4 || s.readLE (a + 0x3C) 4 ≠ 0 }

/-- Format and brick shape of a TARGET code (R65). -/
def targetTy (t : Nat) : Nat × Bool :=
  [(tyN4, true), (tyU4Z, true), (tyT2, true), (tyG4, true), (tyE8, true), (tyE8, false), (tyW16, false)].getD t (15, false)

/-- The outlier map passes the checks of R89 that need no weight descriptor: count, channels, order. -/
def State.mapOk (s : State) (a : Nat) : Bool :=
  let k := s.readLE (a + 4) 4
  let ch := s.mapChannels a
  ch.length ≤ k / 64 && ch.all (· < k) && (ch.zip (ch.drop 1)).all fun p => p.1 < p.2

/-- Checks of R66 and R89 before a quantizing operation moves data: a status, 0 when they pass. A poisoned line of the record or of
its map is not read (R472). -/
def State.qcheck (s : State) (q : QRec) (d : Desc) : Nat :=
  if s.poisoned q.addr 64 then 0x0702
  else if 7 ≤ q.target || q.res0 || targetTy q.target ≠ (d.ty, d.brick) then 0x0104
  else if q.outEn && s.mapPoisoned q.omap then 0x0702
  else if q.outEn && !s.mapOk q.omap then 0x0205 else 0

/-! ### Clipping and the choice of exponent (R68, R71-R74) -/

/-- The effective clip threshold of α (R68), an F32 code. -/
def effAlpha (a : Nat) : Nat :=
  match Fp.dec .f32 a with
  | .inf false => a
  | .fin false m _ => if m = 0 then 0 else a
  | _ => 0

/-- The clipped value, whether the element is clipped, and its mask code (R68, R79). -/
def clipTo (a x : Nat) : Nat × Bool × Nat :=
  if Fp.isNan .f32 x then (x, true, 0)
  else if Fp.lt .f32 a x then (a, true, 1)
  else if Fp.lt .f32 x (Fp.neg .f32 a) then (Fp.neg .f32 a, true, 3)
  else (x, false, 0)

/-- The smallest e from `e` upward at which `ok e` holds, 254 at the end. -/
def firstE (ok : Nat → Bool) : Nat → Nat → Nat
  | 0, e => e
  | n + 1, e => if ok e then e else if 254 ≤ e then 254 else firstE ok n (e + 1)

/-- Magnitude of a finite value: mantissa and exponent. -/
def magOf (x : Nat) : Nat × Int :=
  match Fp.dec .f32 x with
  | .fin _ m e => (m, e)
  | _ => (0, 0)

/-- An exponent below which no choice can succeed. -/
def startE (x : Nat) : Nat :=
  let m := magOf x
  (max 1 (m.2 + (Nat.log2 m.1 : Int) + 127 - 12)).toNat

/-- choose_e (R71): `x` the code of the largest magnitude, `l` the largest code magnitude. -/
def chooseE (x l : Nat) : Nat :=
  let m := magOf x
  if m.1 = 0 then 0 else firstE (fun e => cmpMag m.1 m.2 l ((e : Int) - 127) ≤ 0) 254 (startE x)

/-- ceil of n * 2^k. -/
def ceilScale (n : Nat) (k : Int) : Nat :=
  if 0 ≤ k then n * 2 ^ k.toNat else ceilDiv n (2 ^ (-k).toNat)

/-- The zero point that an exponent takes for the lowest value (R74). -/
def zeroPoint (lo e : Nat) : Nat :=
  let m := magOf lo
  if bit lo 31 then ceilScale m.1 (m.2 + 127 - (e : Int)) else 0

/-- choose_e_z (R74). -/
def chooseEZ (lo hi : Nat) : Nat × Nat :=
  let h := magOf hi
  if (magOf lo).1 = 0 && h.1 = 0 then (0, 0)
  else
    let ok : Nat → Bool := fun e =>
      let z := zeroPoint lo e
      let r := Fp.sumMag (bit hi 31) h.1 (h.2 + 127 - (e : Int)) false z 0
      z ≤ 15 && (r.1 || cmpMag r.2.1 r.2.2 15 0 ≤ 0)
    let e := firstE ok 254 (min (startE (if (magOf lo).1 = 0 then hi else lo)) (startE (if h.1 = 0 then lo else hi)))
    (e, zeroPoint lo e)

/-- Smallest and largest of a list of codes that are not NaN; +0 for none. -/
def leastOf (l : List Nat) : Nat := match l with
  | [] => 0
  | x :: r => r.foldl (fun a b => if Fp.lt .f32 b a then b else a) x
def greatestOf (l : List Nat) : Nat := match l with
  | [] => 0
  | x :: r => r.foldl (fun a b => if Fp.lt .f32 a b then b else a) x

/-- A brick quantized: header without tag, element codes, mask codes, elements clipped, elements converted. -/
structure Quantized where
  hdr : Nat
  codes : List Nat
  masks : List Nat
  clip : Nat
  total : Nat
  deriving DecidableEq, Repr

/-- Quantizes one brick (R63 steps 2 to 5, R68-R75): effective threshold, the 256 values x' with none where
R72 excludes the position, the noise of each element, and whether an outlier channel crosses the brick. A brick of
zeros takes zero point 0 (log 66); a NaN beside an infinity keeps its NaN code (log 67). -/
def quantBrick (ty a : Nat) (xs : List (Option Nat)) (noise : Nat → Nat) (outlier : Bool) : Quantized :=
  let cl := xs.map fun x => x.map (clipTo a)
  let vals := cl.filterMap fun c => c.bind fun p => if Fp.isNan .f32 p.1 then none else some p.1
  let anyInf := vals.any fun x => !Fp.isFinite .f32 x
  let ez : Nat × Nat :=
    if anyInf then (254, if ty = tyU4Z then 8 else 0)
    else if ty = tyU4Z then chooseEZ (leastOf vals) (greatestOf vals)
    else (chooseE (greatestOf (vals.map (Fp.abs .f32)))
      (if ty = tyN4 then 6 else if ty = tyT2 then 1 else if ty = tyG4 then 8 else 448), 0)
  let conv := cl.zipIdx.map fun p => p.1.map fun c =>
    let r := toBricked ty (Fp.dec .f32 c.1) ez.1 ez.2 (noise p.2)
    (r.1, c.2.1 || r.2)
  let isZero : Nat → Bool := fun c => if ty = tyE8 then c % 128 = 0 else c = zeroCode ty ez.2
  let allZ := ez.1 = 0 || conv.all fun c => match c with
    | some p => isZero p.1
    | none => true
  let clip := conv.countP fun c => match c with
    | some p => p.2
    | none => false
  { hdr := if allZ then mkHdr 0 0 0 (clip ≠ 0) outlier true else mkHdr ez.1 ez.2 0 (clip ≠ 0) outlier false
    codes := conv.map fun c => match c with
      | some p => if allZ then 0 else p.1
      | none => if allZ then 0 else zeroCode ty ez.2
    masks := cl.map fun c => match c with
      | some p => p.2.2
      | none => 0
    clip := clip
    total := conv.countP (·.isSome) }

/-! ### The quantizer at work -/

/-- The address lies in a granule that some stage's plan lets its agents only read (R19, R368, R369). -/
def State.readOnly (s : State) (a : Nat) : Bool :=
  let sp := if stagingBase ≤ a then 1 else 0
  let i := (if stagingBase ≤ a then a - stagingBase else a) / 0x400_0000
  (List.range 16).any fun g =>
    let k := s.granuleKind g sp i
    kindReads k && !kindWrites k

/-- The address lies in a PIPE_OUT granule of some stage (R368). -/
def State.inPipeOut (s : State) (a : Nat) : Bool :=
  a < stagingBase && (List.range 16).any fun g => s.granuleKind g 0 (a / 0x400_0000) = 8

/-- An address that a write beside a destination may reach: populated, no chain record, in no granule the stages' agents
may only read, and in the update-engine memory of die `ue` alone, which is a mover's own die (R15, R128, R170, log 64). -/
def State.asideOk (s : State) (ue a : Nat) : Bool :=
  !s.readOnly a && match regionAt s.dev.part a with
    | none => false
    | some (.chains _ _) => false
    | some (.ue die) => die = ue
    | some _ => true

/-- A write that a quantizer or drain makes beside its destination: statistic, clip mask, side tensor, gradient. One that
reaches a place it may not write is not made (log 64); one in a PIPE_OUT granule is kept for the frames it leaves as
(R373). -/
def State.writeAside (s : State) (ue a : Nat) (b : Bytes) : State :=
  if s.asideOk ue a && s.asideOk ue (a + b.length - 1) then
    let s := (s.writeBytes a b).unpoison a b.length
    if s.inPipeOut a then { s with aside := s.aside ++ [(a, b.length)] } else s
  else s

/-- Adds to a record's clip statistic (R75, R76). -/
def State.addClip (s : State) (ue a clip total : Nat) : State :=
  let c := satAdd 32 (s.readLE (a + 0x30) 4) clip
  let t := satAdd 32 (s.readLE (a + 0x34) 4) total
  let o := s.readLE (a + 0x38) 4
  if total = 0 then s
  else
    s.writeAside ue (a + 0x30) (toBytes 4 c.1 ++ toBytes 4 t.1 ++ toBytes 4 (o ||| b2n c.2 ||| (2 * b2n t.2)))

/-- Address of the mask brick at a brick offset (R79). -/
def maskAddr (base : Nat) (off : Int) : Nat := ((base : Int) + 64 * off).toNat

/-- Writes the mask code of one position of an unbricked destination, and 0b00 where the mask brick's positions
lie outside it; a destination of rank 1 has one row (R79, R187). -/
def State.putMask (s : State) (ue base : Nat) (d : Desc) (i : List Int) (code : Nat) : State :=
  let a := maskAddr base (d.image i)
  let at16 : Nat → Nat := fun k => (nth 0 i k % 16).toNat
  let inside : Nat → Nat → Bool := fun k x => nth 0 i k / 16 * 16 + (x : Int) < if k < d.rank then d.sizeOf k else 1
  s.writeAside ue a (packBrick tyT2 ((unpackBrick tyT2 (s.readBytes a 64)).zipIdx.map fun p =>
    if p.2 = 16 * at16 1 + at16 0 then code
    else if inside 1 (p.2 / 16) && inside 0 (p.2 % 16) then p.1 else 0))

/-- The setting of one quantizing operation: record, keys of the noise, what a dimension-0 coordinate adds to
give the channel (R260), the group of a dimension-1 coordinate, and the reach of its writes. -/
structure QEnv where
  q : QRec
  seed : Nat
  n : Nat
  chan : Int
  grp : Int → Grp
  ue : Nat                       -- die whose update-engine memory the operation reaches (R170), 64 for none

/-- x' of an element under its group's costume (R67). That the multiplication raises no flag of VCSR is DEDUCED: R154 speaks
of the vector engine's own roundings, and the store quantizer's conversions raise none (R56, log 56). -/
def State.scaledIn (s : State) (v : QEnv) (g : Grp) (i : List Int) (x : Nat) : Nat :=
  if v.q.cSin then
    match s.sIn g.image v.q.qindex (nth 0 i 0 + v.chan).toNat with
    | some k => (Fp.mul .f32 0 x k).1
    | none => x
  else x

/-- α of a group (R69). -/
def State.groupAlpha (s : State) (v : QEnv) (g : Grp) : Nat :=
  if v.q.cAlpha then (s.alphaOf g.image v.q.qindex).getD v.q.alpha else v.q.alpha

/-- A position is an outlier channel of the record's map. -/
def QEnv.outlier (v : QEnv) (ch : List Nat) (i : List Int) : Bool :=
  v.q.outEn && ch.contains (nth 0 i 0 + v.chan).toNat

/-- The value x' of a position, none where R72 excludes it. -/
def State.contrib (s : State) (v : QEnv) (d : Desc) (ch : List Nat) (i : List Int) (x : Option Nat) : Option Nat :=
  let g := v.grp (nth 0 i 1)
  match x with
  | none => none
  | some x =>
    if d.inb i && (nth 0 i 1 % 16).toNat < g.valid && !v.outlier ch i then some (s.scaledIn v g i x) else none

/-- Writes an outlier channel's value to the side tensor (R90); its row is the dimension-1 coordinate, whatever the
rank (log 65). -/
def State.putSide (s : State) (v : QEnv) (ch : List Nat) (i : List Int) (x : Nat) : State :=
  let g := v.grp (nth 0 i 1)
  let j := ch.findIdx (· = (nth 0 i 0 + v.chan).toNat)
  if (nth 0 i 1 % 16).toNat < g.valid then
    s.writeAside v.ue (v.q.side + 64 + 2 * ((nth 0 i 1).toNat * ch.length + j))
      (toBytes 2 (toW16 (Fp.dec .f32 (s.scaledIn v g i x)) false).1)
  else s

/-- The header of the side tensor (R90). -/
def State.sideHeader (s : State) (v : QEnv) : State :=
  if v.q.outEn then
    s.writeAside v.ue v.q.side (toBytes 8 v.q.omap ++ toBytes 2 (s.readLE v.q.omap 2) ++ zeros 54)
  else s

/-- Quantizes and writes the destination brick that holds index vector `i0`, whose first two coordinates are
multiples of 16. `x` gives the input of each position of the brick, row-major; statistics already added for
the brick by earlier stores come in and go out (R156). -/
def State.quantOne (s : State) (v : QEnv) (d : Desc) (ch : List Nat) (i0 : List Int) (x : List (Option Nat))
    (had : Nat × Nat) : State × Quantized :=
  let idx : Nat → List Int := fun p => plus i0 [p % 16, p / 16, 0, 0, 0, 0]
  let xs := x.zipIdx.map fun p => s.contrib v d ch (idx p.2) p.1
  let g := v.grp (nth 0 i0 1)
  let out := v.q.outEn && (List.range 16).any fun c => v.outlier ch (idx c)
  let r := quantBrick d.ty (effAlpha (s.groupAlpha v g)) xs
    (fun p => if d.ty = tyG4 then noise16 v.seed (d.omap % 2 ^ 24) v.n (d.linear (idx p)) else 0) out
  let off := d.offset i0
  let sums := if v.q.sumEn && d.sums ≠ 0 then some (brickSums d.ty d.sums r.codes) else none
  let s := s.putBrick d off r.hdr r.codes sums
  let s := if v.q.maskEn then
      s.writeAside v.ue (maskAddr v.q.mask off) (packBrick tyT2 r.masks)
    else s
  let s := if out then
      x.zipIdx.foldl (fun s p => match p.1 with
        | some y => if d.inb (idx p.2) && v.outlier ch (idx p.2) then s.putSide v ch (idx p.2) y else s
        | none => s) s
    else s
  (s.addClip v.ue v.q.addr (r.clip - had.1) (r.total - had.2), r)

/-- Quantizes a block into a bricked destination, brick by brick; a brick with no in-bounds position is dropped
(R200). The block starts at a multiple of 16 and covers whole bricks in dimensions 0 and 1. `x` gives the F32
input of an index vector of the block. Dropped positions are counted. -/
def State.quantBlock (s : State) (v : QEnv) (d : Desc) (o : List Int) (ext : List Nat) (x : List Nat → Option Nat) :
    State × Nat :=
  let ch := if v.q.outEn then s.mapChannels v.q.omap else []
  let be := ceilDiv (nth 0 ext 0) 16 :: ceilDiv (nth 0 ext 1) 16 :: ext.drop 2
  (positions be).foldl (fun p b =>
    let b0 := (16 * nth 0 b 0) :: (16 * nth 0 b 1) :: b.drop 2
    let i0 := plus o b0
    if d.inBrick i0 then
      let xs := (List.range 256).map fun k => x ((nth 0 b0 0 + k % 16) :: (nth 0 b0 1 + k / 16) :: b0.drop 2)
      ((p.1.quantOne v d ch i0 xs (0, 0)).1, p.2)
    else (p.1, p.2 + 256)) (s.sideHeader v, 0)

/-- Quantizes one position of an unbricked E8 or W16 target (R65 codes 5 and 6). -/
def State.quantElem (s : State) (v : QEnv) (d : Desc) (ch : List Nat) (i : List Int) (x : Option Nat) : State × Nat :=
  let y := s.contrib v d ch i x
  match y with
  | some y =>
    let c := clipTo (effAlpha (s.groupAlpha v (v.grp (nth 0 i 1)))) y
    let r := if d.ty = tyW16 then toW16 (Fp.dec .f32 c.1) d.ovf else toE8 (Fp.dec .f32 c.1) 0
    let w := s.putElem d i r.1
    let s := if v.q.maskEn then
        w.1.putMask v.ue v.q.mask d i c.2.2
      else w.1
    (s.addClip v.ue v.q.addr (b2n (c.2.1 || r.2)) 1, w.2)
  | none =>
    let w := s.putElem d i 0
    let s := if v.q.maskEn && d.inb i then
        w.1.putMask v.ue v.q.mask d i 0
      else w.1
    match x with
    | some y => (if d.inb i && v.outlier ch i then s.putSide v ch i y else s, w.2)
    | none => (s, w.2)

/-- Keys of the noise in a stage: seed and n of its step's tuning job (R222). -/
def State.noiseKeys (s : State) (g : Nat) : Nat × Nat :=
  match (s.stage g).step with
  | some t => (t.seed, t.tuneN)
  | none => (0, 0)

/-- The step's group table, read by a vector STQ or a mover QUANT whose record applies costumes (R276). -/
def State.tableGrp (s : State) (g : Nat) (q : QRec) : Int → Grp := fun r =>
  match (s.stage g).step with
  | some t => if q.cSin || q.cAlpha then s.grp (t.table + 64 * (r / 16).toNat) else Grp.whole
  | none => Grp.whole

end Sys2Proof.Machine
end

