-- ==== Sys2Proof/Machine/TileWord.lean ====
section
/-! DEFINITION. TileWord.lean: the 128-bit words of tile instructions (R228, R232-R234 and the field tables of
ch. Tile programs), as a cluster's instruction memory holds them. -/

namespace Sys2Proof.TileWord

/-- A word from its fields, each given as (lowest bit, value). -/
def pack (l : List (Nat × Nat)) : Nat := l.foldl (fun n p => n + p.2 * 2 ^ p.1) 0

/-- Opcode, SIGEN and SEM (Table Common instruction fields). -/
def common (op : Nat) (i : Issue) : List (Nat × Nat) := [(0, op), (8, b2n i.sigen), (9, i.sem)]

def nop : Nat := 0
def halt : Nat := 1
def wait (tsem count : Nat) : Nat := pack [(0, 2), (17, tsem), (32, count)]
def signal (f : SignalF) : Nat :=
  pack [(0, 3), (17, f.tsem), (24, b2n f.remote), (25, f.die), (31, f.cluster), (48, f.count)]
def barrier (scope id : Nat) : Nat := pack [(0, 4), (17, scope), (19, id)]
def sli (dst imm : Nat) : Nat := pack [(0, 8), (17, dst), (64, imm)]
def sop (fn : Nat) (f : SopF) : Nat :=
  pack [(0, 9), (17, fn), (21, f.dst), (26, f.a), (31, f.b), (36, b2n f.immsel), (64, f.imm)]
def br (cond a b target : Nat) : Nat := pack [(0, 10), (17, cond), (21, a), (26, b), (32, target)]
def dload (slot areg cnt : Nat) : Nat := pack [(0, 11), (17, slot), (23, areg), (28, cnt)]
def mm (op : Nat) (i : Issue) (f : MmF) : Nat :=
  pack (common op i ++ [(17, f.array), (19, b2n f.stream), (20, b2n f.keep), (21, f.vm1), (24, f.dm1), (27, f.chain),
    (33, f.sdesc), (39, f.sreg), (44, f.xdesc), (50, f.xreg), (55, b2n f.osen), (56, f.osdesc), (62, f.osreg)])
def acc (op : Nat) (i : Issue) (f : AccF) : Nat :=
  pack (common op i ++ [(17, f.array), (19, b2n f.stream), (20, f.base), (26, f.cbase), (32, f.depth),
    (35, b2n f.pair), (36, b2n f.corr)])
def drain (op : Nat) (i : Issue) (f : DrainF) : Nat :=
  pack (common op i ++ [(17, f.array), (19, b2n f.gsrc), (20, f.chain), (26, f.oslot), (32, b2n f.oen),
    (33, b2n f.cen), (34, b2n f.sven), (35, b2n f.qen), (36, f.gmode), (38, b2n f.men), (39, f.vm1), (42, f.ddesc),
    (48, f.dreg), (53, f.svdesc), (59, f.svreg), (64, f.mdesc), (70, f.mreg), (75, f.qreg), (80, f.greg),
    (85, f.opidx), (97, f.opreg), (102, f.gsdesc), (108, f.gsreg)])
def vec (fn : Nat) (i : Issue) (f : VecF) : Nat :=
  pack (common 0x28 i ++ [(16, b2n f.nowait), (17, fn), (25, f.vd), (30, f.va), (35, f.vb), (40, f.vc),
    (45, b2n f.bscal), (46, b2n f.men), (47, f.mask), (50, b2n f.prec), (51, f.opa.1), (57, f.opa.2),
    (62, f.opb.1), (68, f.opb.2), (73, f.opc.1), (79, f.opc.2), (84, f.opd.1), (90, f.opd.2), (95, f.ope.1),
    (101, f.ope.2), (106, f.qreg), (111, f.lreg), (116, f.cat), (120, f.preg)])
def mov (kind : Nat) (i : Issue) (f : MovF) : Nat :=
  pack (common 0x30 i ++ [(16, b2n f.nowait), (17, f.mover), (18, kind), (20, b2n f.trans), (21, f.sdesc),
    (27, f.sreg), (32, f.ddesc), (38, f.dreg), (43, f.ereg), (48, f.areg)])

/-! ### The word of a command, and back -/

/-- The cluster and the word of a command that a sequencer issues; none for every other command. -/
def ofInstr : Instr → Option (ClusterId × Nat)
  | .nop cl => some (cl, nop)
  | .halt cl => some (cl, halt)
  | .wait cl tsem count => some (cl, wait tsem count)
  | .signal cl f => some (cl, signal f)
  | .barrier cl scope id => some (cl, barrier scope id)
  | .sli cl dst imm => some (cl, sli dst imm)
  | .sopAdd cl f => some (cl, sop 0 f)
  | .sopSub cl f => some (cl, sop 1 f)
  | .sopMul cl f => some (cl, sop 2 f)
  | .sopAnd cl f => some (cl, sop 3 f)
  | .sopOr cl f => some (cl, sop 4 f)
  | .sopXor cl f => some (cl, sop 5 f)
  | .sopShl cl f => some (cl, sop 6 f)
  | .sopShr cl f => some (cl, sop 7 f)
  | .sopSar cl f => some (cl, sop 8 f)
  | .sopMin cl f => some (cl, sop 9 f)
  | .sopMax cl f => some (cl, sop 10 f)
  | .sopMinu cl f => some (cl, sop 11 f)
  | .sopMaxu cl f => some (cl, sop 12 f)
  | .br cl cond a b target => some (cl, br cond a b target)
  | .dload cl slot areg cnt => some (cl, dload slot areg cnt)
  | .mm i f => some (i.cl, mm 0x10 i f)
  | .mmT i f => some (i.cl, mm 0x11 i f)
  | .mmW i f => some (i.cl, mm 0x12 i f)
  | .accOpen i f => some (i.cl, acc 0x18 i f)
  | .accMerge i f => some (i.cl, acc 0x19 i f)
  | .accRelease i f => some (i.cl, acc 0x1A i f)
  | .drain i f => some (i.cl, drain 0x20 i f)
  | .gdrain i f => some (i.cl, drain 0x21 i f)
  | .vecAdd i f => some (i.cl, vec 0 i f)
  | .vecSub i f => some (i.cl, vec 1 i f)
  | .vecMul i f => some (i.cl, vec 2 i f)
  | .fma i f => some (i.cl, vec 3 i f)
  | .vecMin i f => some (i.cl, vec 4 i f)
  | .vecMax i f => some (i.cl, vec 5 i f)
  | .neg i f => some (i.cl, vec 6 i f)
  | .abs i f => some (i.cl, vec 7 i f)
  | .cmpgt i f => some (i.cl, vec 8 i f)
  | .cmpge i f => some (i.cl, vec 9 i f)
  | .cmpeq i f => some (i.cl, vec 0xA i f)
  | .sel i f => some (i.cl, vec 0xB i f)
  | .cvtd i f => some (i.cl, vec 0xC i f)
  | .cvts i f => some (i.cl, vec 0xD i f)
  | .div i f => some (i.cl, vec 0x10 i f)
  | .sqrt i f => some (i.cl, vec 0x11 i f)
  | .exp2 i f => some (i.cl, vec 0x18 i f)
  | .log2 i f => some (i.cl, vec 0x19 i f)
  | .rcp i f => some (i.cl, vec 0x1A i f)
  | .rsq i f => some (i.cl, vec 0x1B i f)
  | .sig i f => some (i.cl, vec 0x1C i f)
  | .tanh i f => some (i.cl, vec 0x1D i f)
  | .ld i f => some (i.cl, vec 0x20 i f)
  | .st i f => some (i.cl, vec 0x21 i f)
  | .stq i f => some (i.cl, vec 0x22 i f)
  | .rowsum i f => some (i.cl, vec 0x28 i f)
  | .rowmax i f => some (i.cl, vec 0x29 i f)
  | .rowmin i f => some (i.cl, vec 0x2A i f)
  | .act i f => some (i.cl, vec 0x30 i f)
  | .actb i f => some (i.cl, vec 0x31 i f)
  | .osum i f => some (i.cl, vec 0x38 i f)
  | .osumT i f => some (i.cl, vec 0x39 i f)
  | .setrm i f => some (i.cl, vec 0x3C i f)
  | .movCopy i f => some (i.cl, mov 0 i f)
  | .movConvert i f => some (i.cl, mov 1 i f)
  | .movQuant i f => some (i.cl, mov 2 i f)
  | .movGather i f => some (i.cl, mov 3 i f)
  | _ => none

def issueOf (cl : ClusterId) (w : Nat) : Issue := ⟨cl, bit w 8, bits w 9 7⟩
def sopOf (w : Nat) : SopF := ⟨bits w 21 5, bits w 26 5, bits w 31 5, bit w 36, bits w 64 32⟩
def signalOf (w : Nat) : SignalF := ⟨bits w 17 7, bit w 24, bits w 25 6, bits w 31 4, bits w 48 16⟩
def mmOf (w : Nat) : MmF :=
  ⟨bits w 17 2, bit w 19, bit w 20, bits w 21 3, bits w 24 3, bits w 27 6, bits w 33 6, bits w 39 5, bits w 44 6, bits w 50 5,
    bit w 55, bits w 56 6, bits w 62 5⟩
def accOf (w : Nat) : AccF := ⟨bits w 17 2, bit w 19, bits w 20 6, bits w 26 6, bits w 32 3, bit w 35, bit w 36⟩
def drainOf (w : Nat) : DrainF :=
  ⟨bits w 17 2, bit w 19, bits w 20 6, bits w 26 6, bit w 32, bit w 33, bit w 34, bit w 35, bits w 36 2, bit w 38, bits w 39 3,
    bits w 42 6, bits w 48 5, bits w 53 6, bits w 59 5, bits w 64 6, bits w 70 5, bits w 75 5, bits w 80 5, bits w 85 12,
    bits w 97 5, bits w 102 6, bits w 108 5⟩
def vecOf (w : Nat) : VecF :=
  ⟨bit w 16, bits w 25 5, bits w 30 5, bits w 35 5, bits w 40 5, bit w 45, bit w 46, bits w 47 3, bit w 50,
    (bits w 51 6, bits w 57 5), (bits w 62 6, bits w 68 5), (bits w 73 6, bits w 79 5), (bits w 84 6, bits w 90 5),
    (bits w 95 6, bits w 101 5), bits w 106 5, bits w 111 5, bits w 116 4, bits w 120 5⟩
def movOf (w : Nat) : MovF :=
  ⟨bit w 16, bits w 17 1, bit w 20, bits w 21 6, bits w 27 5, bits w 32 6, bits w 38 5, bits w 43 5, bits w 48 5⟩

/-- The instruction of a SOP word by its function code. -/
def sopInstr (cl : ClusterId) (f : SopF) : Nat → Option Instr
  | 0 => some (.sopAdd cl f)
  | 1 => some (.sopSub cl f)
  | 2 => some (.sopMul cl f)
  | 3 => some (.sopAnd cl f)
  | 4 => some (.sopOr cl f)
  | 5 => some (.sopXor cl f)
  | 6 => some (.sopShl cl f)
  | 7 => some (.sopShr cl f)
  | 8 => some (.sopSar cl f)
  | 9 => some (.sopMin cl f)
  | 10 => some (.sopMax cl f)
  | 11 => some (.sopMinu cl f)
  | 12 => some (.sopMaxu cl f)
  | _ => none

/-- The instruction of a VEC word by its function code (Table Vector functions). -/
def vecInstr (i : Issue) (f : VecF) : Nat → Option Instr
  | 0 => some (.vecAdd i f)
  | 1 => some (.vecSub i f)
  | 2 => some (.vecMul i f)
  | 3 => some (.fma i f)
  | 4 => some (.vecMin i f)
  | 5 => some (.vecMax i f)
  | 6 => some (.neg i f)
  | 7 => some (.abs i f)
  | 8 => some (.cmpgt i f)
  | 9 => some (.cmpge i f)
  | 0xA => some (.cmpeq i f)
  | 0xB => some (.sel i f)
  | 0xC => some (.cvtd i f)
  | 0xD => some (.cvts i f)
  | 0x10 => some (.div i f)
  | 0x11 => some (.sqrt i f)
  | 0x18 => some (.exp2 i f)
  | 0x19 => some (.log2 i f)
  | 0x1A => some (.rcp i f)
  | 0x1B => some (.rsq i f)
  | 0x1C => some (.sig i f)
  | 0x1D => some (.tanh i f)
  | 0x20 => some (.ld i f)
  | 0x21 => some (.st i f)
  | 0x22 => some (.stq i f)
  | 0x28 => some (.rowsum i f)
  | 0x29 => some (.rowmax i f)
  | 0x2A => some (.rowmin i f)
  | 0x30 => some (.act i f)
  | 0x31 => some (.actb i f)
  | 0x38 => some (.osum i f)
  | 0x39 => some (.osumT i f)
  | 0x3C => some (.setrm i f)
  | _ => none

/-- The instruction of a MOV word by its KIND. -/
def movInstr (i : Issue) (f : MovF) : Nat → Option Instr
  | 0 => some (.movCopy i f)
  | 1 => some (.movConvert i f)
  | 2 => some (.movQuant i f)
  | 3 => some (.movGather i f)
  | _ => none

/-- The command that a word of a cluster's program stands for; none for a reserved opcode or function (R228, R229). -/
def toInstr (cl : ClusterId) (w : Nat) : Option Instr :=
  let i := issueOf cl w
  match bits w 0 8 with
  | 0x00 => some (.nop cl)
  | 0x01 => some (.halt cl)
  | 0x02 => some (.wait cl (bits w 17 7) (bits w 32 16))
  | 0x03 => some (.signal cl (signalOf w))
  | 0x04 => some (.barrier cl (bits w 17 2) (bits w 19 3))
  | 0x08 => some (.sli cl (bits w 17 5) (bits w 64 64))
  | 0x09 => sopInstr cl (sopOf w) (bits w 17 4)
  | 0x0A => some (.br cl (bits w 17 4) (bits w 21 5) (bits w 26 5) (bits w 32 12))
  | 0x0B => some (.dload cl (bits w 17 6) (bits w 23 5) (bits w 28 6))
  | 0x10 => some (.mm i (mmOf w))
  | 0x11 => some (.mmT i (mmOf w))
  | 0x12 => some (.mmW i (mmOf w))
  | 0x18 => some (.accOpen i (accOf w))
  | 0x19 => some (.accMerge i (accOf w))
  | 0x1A => some (.accRelease i (accOf w))
  | 0x20 => some (.drain i (drainOf w))
  | 0x21 => some (.gdrain i (drainOf w))
  | 0x28 => vecInstr i (vecOf w) (bits w 17 8)
  | 0x30 => movInstr i (movOf w) (bits w 18 2)
  | _ => none

end Sys2Proof.TileWord
end

