-- ==== Sys2Proof/Machine/Sequencer.lean ====
section
/-! DEFINITION. Sequencer.lean: the cluster sequencer: issue, completion, faults, control instructions,
semaphores, remote signals and barriers, START and ABORT (ch. Tile programs). -/

namespace Sys2Proof.Machine

/-! ### Issue (R224, R226) -/

/-- A program's word without SEM where its opcode is a control instruction's: with SIGEN 0 the field has no effect (R228). -/
def plainWord (m : Nat) : Nat := if m % 256 < 0x10 then m - bits m 9 7 * 2 ^ 9 else m

/-- The sequencer runs and the next instruction of its program is this word. -/
def State.canIssue (s : State) (cl : ClusterId) (w : Nat) : Bool :=
  let c := s.cluster cl
  c.st == .running && !c.halting && plainWord (Table.get 0 c.imem c.pc) == w

/-- PC past an instruction that has issued. -/
def Cluster.next (c : Cluster) : Cluster := { c with pc := (c.pc + 1) % 4096 }
def State.advance (s : State) (cl : ClusterId) : State := s.setCluster cl (s.cluster cl).next

/-- Instructions that a unit holds, by unit code; movers hold those of every cluster of the die. -/
def State.unitQueue (s : State) (cl unit : Nat) : List Issued :=
  if unit = 8 then (s.die (cl / 16)).mover0
  else if unit = 9 then (s.die (cl / 16)).mover1
  else if unit = 7 then (s.cluster cl).vec
  else if 4 ≤ unit then (s.cluster cl).drain (unit - 4)
  else ((s.cluster cl).arr (unit - 1)).queue

def State.setUnit (s : State) (cl unit : Nat) (q : List Issued) : State :=
  if unit = 8 then s.setDie (cl / 16) { s.die (cl / 16) with mover0 := q }
  else if unit = 9 then s.setDie (cl / 16) { s.die (cl / 16) with mover1 := q }
  else
    let c := s.cluster cl
    if unit = 7 then s.setCluster cl { c with vec := q }
    else if 4 ≤ unit then s.setCluster cl (c.setDrain (unit - 4) q)
    else s.setCluster cl (c.setArr (unit - 1) { c.arr (unit - 1) with queue := q })

/-- Depth of a unit's queue (R216, R226). -/
def unitDepth (unit : Nat) : Nat := if 8 ≤ unit then 64 else if unit = 7 then 3 else if 4 ≤ unit then 1 else 2
def State.room (s : State) (cl unit : Nat) : Bool := (s.unitQueue cl unit).length < unitDepth unit

/-- Instructions of a sequencer that have issued and not completed. -/
def State.inFlight (s : State) (cl : ClusterId) : Nat :=
  let c := s.cluster cl
  c.t0.queue.length + c.t1.queue.length + c.t2.queue.length + c.drain0.length + c.drain1.length +
    c.drain2.length + c.vec.length + ((s.die (cl / 16)).mover0.countP (·.cluster == cl)) +
    ((s.die (cl / 16)).mover1.countP (·.cluster == cl))

/-- A unit instruction as it issues, its work not yet known. -/
def State.entryFor (s : State) (i : Issue) (opcode : Nat) (stream : Bool) (base : Nat) : Issued where
  pc := (s.cluster i.cl).pc
  opcode := opcode
  stream := stream
  sigen := i.sigen
  sem := i.sem
  cluster := i.cl
  base := base
  status := 0
  rows := []
  row := 0
  newRun := false
  waitsTile := false
  carries := false
  parity := false
  flags := 0
  slots := []
  rslots := []
  poison := 0
  frames := []
  counts := []
  quant := []
  undo := []
  taken := none
  dies := []

/-- Issues an entry to a unit: it joins the unit's queue, and PC moves on. -/
def State.push (s : State) (cl unit : Nat) (e : Issued) : State :=
  (s.setUnit cl unit (s.unitQueue cl unit ++ [e])).advance cl

/-- An instruction joins its unit's queue without having begun; `slots` are the accumulator slots that it is to write. -/
def State.enqueue (s : State) (cl unit : Nat) (i : Issue) (opcode : Nat) (w : Work) (slots : List Nat) : State :=
  let c := s.cluster cl
  s.push cl unit { s.entryFor i opcode false 0 with taken := some ⟨w, c.sregs, c.dslots⟩, slots := slots }

/-- The first instruction of a unit's queue begins: its work `f` finds the registers and descriptors that it took at issue
(R225) and leaves its entry, which takes its place before the `rest` of the queue. -/
def State.beginFirst (s : State) (unit : Nat) (e : Issued) (t : Taken) (rest : List Issued) (f : State → State) : State :=
  let cl := e.cluster
  let c := s.cluster cl
  let r := f ((s.setCluster cl { c with sregs := t.sregs, dslots := t.dslots, pc := e.pc }).setUnit cl unit [])
  let r := r.setCluster cl { r.cluster cl with sregs := c.sregs, dslots := c.dslots, pc := c.pc }
  r.setUnit cl unit (r.unitQueue cl unit ++ rest)

/-! ### Reads that are not ordered after a write (R51, R248) -/

/-- Writes of instructions of other units that have not completed: no synchronization has released them. -/
def State.unreleased (s : State) (cl unit : Nat) : List (Nat × Nat × Byte) :=
  let mover := 8 ≤ unit
  let own := s.clusters.flatMap fun x => (([4, 5, 6, 7].filter fun u => !(x.1 = cl && u = unit)).map (s.unitQueue x.1)).flatten
  let movers := s.dies.flatMap fun x => (([8, 9].filter fun u => !(mover && x.1 = cl / 16 && u = unit)).map (s.unitQueue (16 * x.1))).flatten
  (own ++ movers).flatMap (·.undo)

/-- What an instruction does at issue where its reads are not ordered after some writes: it sees, line by line, the old
or the new contents of what they have changed, and neither is lost (R51; DESIGN CHOICE, log 39). -/
def State.racing (s : State) (cl unit : Nat) (f : State → State) : State :=
  let l := s.unreleased cl unit
  if l.isEmpty then f s
  else
    let lines := (l.map (·.1)).eraseDups
    let stale := (lines.zipIdx.filter fun x => (Config.free32 (s.draws + x.2)).getLsbD 0).map (·.1)
    let back := l.filter fun x => stale.contains x.1
    let r := back.foldl (fun r x => r.writeByte x.2.1 x.2.2) { s with draws := s.draws + lines.length }
    back.foldl (fun t x => if t.readByte x.2.1 = r.readByte x.2.1 then t.writeByte x.2.1 (s.readByte x.2.1) else t) (f r)

/-! ### Step faults (R251) -/

/-- Records a step fault: the sequencer's first one, and the first one of its stage's step. -/
def State.stepFault (s : State) (cl status unit pc slot : Nat) (parity : Bool) : State :=
  let c := s.cluster cl
  let s := if c.faultStatus = 0 && (c.st == .running || c.st == .faulted) then
      s.setCluster cl { c with st := .faulted, faultStatus := status, faultUnit := unit, faultPc := pc,
                               faultSlot := slot }
    else s
  let g := s.stageOfDie (cl / 16)
  match (s.stage g).step with
  | some t => if t.cause = 0 then s.setStage g { s.stage g with step := some { t with cause := status, parity := parity } } else s
  | none => s

/-- HALT completes once nothing of the sequencer is in flight (R223). -/
def State.settleHalt (s : State) (cl : ClusterId) : State :=
  let c := s.cluster cl
  if c.halting && s.inFlight cl = 0 && c.outSignals = 0 then
    s.setCluster cl { c with halting := false, st := if c.st == .running then .halted else c.st }
  else s

/-- The frames that an entry's writes left as are in the retransmit buffers of their ports (R373). -/
def State.shipped (s : State) (e : Issued) : Bool := e.frames.all fun p => p.2 ≤ (s.port p.1).pipes

/-- The work of an entry is done. -/
def Issued.done (e : Issued) : Bool := e.taken.isNone && (e.status ≠ 0 || (e.rows.length ≤ e.row && e.poison = 0))

/-- The first entry of a queue whose work is done, and the queue without it: the oldest one of a cluster completes first,
though R214 lets a mover's operations that touch no common byte complete in any order. DESIGN CHOICE, log 18. -/
def takeDone (mine : Issued → Bool) : List Issued → Option (Issued × List Issued)
  | [] => none
  | e :: r =>
    if mine e && e.done then some (e, r)
    else match takeDone mine r with
      | some (f, q) => some (f, e :: q)
      | none => none

/-- What the completion of an instruction does in its cluster: its signal adds 1, and the flags it raised are
set (R154, R227). -/
def Cluster.completed (c : Cluster) (e : Issued) : Cluster :=
  let c := { c with flags := c.flags ||| e.flags }
  if e.sigen then c.addSem e.sem 1 else c

/-- The completion of an entry (R227): it leaves the queue `q` behind, and a status other than OK or PARITY_REPLAYED is a
step fault. -/
def State.complete (s : State) (cl unit : Nat) (e : Issued) (q : List Issued) : State :=
  let s := s.setUnit cl unit q
  let s := s.setCluster cl ((s.cluster cl).completed e)
  let s := if e.status ≠ 0 && e.status ≠ 0x0701 then s.stepFault cl e.status unit e.pc e.base e.parity else s
  s.settleHalt cl

/-! ### Control instructions -/

def execNop (cl : ClusterId) (s : State) : Res := guarded (s.canIssue cl TileWord.nop) s (s.advance cl)

/-- HALT (R223). -/
def State.halted (s : State) (cl : ClusterId) : State :=
  (s.setCluster cl { (s.cluster cl).next with halting := true }).settleHalt cl
def execHalt (cl : ClusterId) (s : State) : Res := guarded (s.canIssue cl TileWord.halt) s (s.halted cl)

/-- WAIT (R247). -/
def execWait (cl : ClusterId) (tsem count : Nat) (s : State) : Res :=
  let c := s.cluster cl
  guarded (s.canIssue cl (TileWord.wait tsem count) && count ≤ c.sem tsem) s
    (s.setCluster cl (c.setSem tsem (c.sem tsem - count)).next)

/-- SIGNAL (R248, R249). -/
def State.signalled (s : State) (cl : ClusterId) (f : SignalF) : State :=
  let c := s.cluster cl
  let g := s.stageOfDie (cl / 16)
  if !f.remote then s.setCluster cl (c.addSem f.tsem f.count).next
  else if f.die < s.dev.part.cds && (s.stageDies g).contains f.die then
    { s.setCluster cl { c.next with outSignals := c.outSignals + 1 } with
      signals := s.signals ++ [⟨cl, 16 * f.die + f.cluster, f.tsem, f.count, g, (s.stage g).epoch⟩] }
  else (s.advance cl).stepFault cl 0x0104 0 c.pc 0 false
def execSignal (cl : ClusterId) (f : SignalF) (s : State) : Res :=
  guarded (s.canIssue cl (TileWord.signal f) && s.inFlight cl = 0 && (s.cluster cl).outSignals < 63) s
    (s.signalled cl f)

/-- Participants of a barrier (R250): sequencers of the die or of the stage that the step started and that have
not executed HALT. -/
def State.participants (s : State) (cl scope : Nat) : List ClusterId :=
  let dies := if scope = 1 then [cl / 16] else s.stageDies (s.stageOfDie (cl / 16))
  (dies.flatMap fun d => (List.range 16).map fun c => 16 * d + c).filter fun k =>
    let c := s.cluster k
    (c.st == .running || c.st == .faulted) && !c.halting

/-- Another participant has reached a round of a barrier. -/
def State.reached (s : State) (k key round : Nat) (scope id : Nat) : Bool :=
  let c := s.cluster k
  let r := Table.get 0 c.rounds key
  round < r || (r = round && c.arrived == some (scope, id))

/-- BARRIER (R250): once everything issued before it has completed, the sequencer arrives, and it goes on when
every participant has arrived at the same round. -/
def State.barrier (s : State) (cl scope id : Nat) : State :=
  let key := 8 * scope + id
  let c := s.cluster cl
  if scope = 0 then s.advance cl
  else
    let s := s.setCluster cl { c with arrived := some (scope, id) }
    let round := Table.get 0 c.rounds key
    if (s.participants cl scope).all fun k => s.reached k key round scope id then
      s.setCluster cl { c.next with arrived := none, rounds := Table.set 0 c.rounds key (round + 1) }
    else s
def execBarrier (cl : ClusterId) (scope id : Nat) (s : State) : Res :=
  guarded (s.canIssue cl (TileWord.barrier scope id) && s.inFlight cl = 0) s (s.barrier cl scope id)

def execSli (cl : ClusterId) (dst imm : Nat) (s : State) : Res :=
  guarded (s.canIssue cl (TileWord.sli dst imm)) s
    (s.setCluster cl ((s.cluster cl).setSreg dst (BitVec.ofNat 64 imm)).next)

/-! ### Scalar arithmetic (R232, R233) -/

/-- Second operand of SOP: register B, or IMM sign-extended. -/
def Cluster.sopB (c : Cluster) (f : SopF) : BitVec 64 :=
  if f.immsel then (BitVec.ofNat 32 f.imm).signExtend 64 else c.sreg f.b

/-- SOP with function code `fn`: DST := A op B. -/
def State.sop (s : State) (cl fn : Nat) (f : SopF) (op : BitVec 64 → BitVec 64 → BitVec 64) : Res :=
  let c := s.cluster cl
  guarded (s.canIssue cl (TileWord.sop fn f)) s
    (s.setCluster cl (c.setSreg f.dst (op (c.sreg f.a) (c.sopB f))).next)

def sopMin (a b : BitVec 64) : BitVec 64 := if a.slt b then a else b
def sopMax (a b : BitVec 64) : BitVec 64 := if a.slt b then b else a
def sopMinu (a b : BitVec 64) : BitVec 64 := if a < b then a else b
def sopMaxu (a b : BitVec 64) : BitVec 64 := if a < b then b else a
def sopShl (a b : BitVec 64) : BitVec 64 := a <<< (b.toNat % 64)
def sopShr (a b : BitVec 64) : BitVec 64 := a >>> (b.toNat % 64)
def sopSar (a b : BitVec 64) : BitVec 64 := a.sshiftRight (b.toNat % 64)

def execSopAdd (cl : ClusterId) (f : SopF) (s : State) : Res := s.sop cl 0 f (· + ·)
def execSopSub (cl : ClusterId) (f : SopF) (s : State) : Res := s.sop cl 1 f (· - ·)
def execSopMul (cl : ClusterId) (f : SopF) (s : State) : Res := s.sop cl 2 f (· * ·)
def execSopAnd (cl : ClusterId) (f : SopF) (s : State) : Res := s.sop cl 3 f (· &&& ·)
def execSopOr (cl : ClusterId) (f : SopF) (s : State) : Res := s.sop cl 4 f (· ||| ·)
def execSopXor (cl : ClusterId) (f : SopF) (s : State) : Res := s.sop cl 5 f (· ^^^ ·)
def execSopShl (cl : ClusterId) (f : SopF) (s : State) : Res := s.sop cl 6 f sopShl
def execSopShr (cl : ClusterId) (f : SopF) (s : State) : Res := s.sop cl 7 f sopShr
def execSopSar (cl : ClusterId) (f : SopF) (s : State) : Res := s.sop cl 8 f sopSar
def execSopMin (cl : ClusterId) (f : SopF) (s : State) : Res := s.sop cl 9 f sopMin
def execSopMax (cl : ClusterId) (f : SopF) (s : State) : Res := s.sop cl 10 f sopMax
def execSopMinu (cl : ClusterId) (f : SopF) (s : State) : Res := s.sop cl 11 f sopMinu
def execSopMaxu (cl : ClusterId) (f : SopF) (s : State) : Res := s.sop cl 12 f sopMaxu

/-- Branch conditions (Table Branch conditions). -/
def brTaken (cond : Nat) (a b : BitVec 64) : Bool :=
  match cond with
  | 0 => true
  | 1 => a == b
  | 2 => a != b
  | 3 => a.slt b
  | 4 => !a.slt b
  | 5 => a < b
  | _ => !(a < b)

def execBr (cl : ClusterId) (cond a b target : Nat) (s : State) : Res :=
  let c := s.cluster cl
  guarded (s.canIssue cl (TileWord.br cond a b target)) s
    (s.setCluster cl (if brTaken cond (c.sreg a) (c.sreg b) then { c with pc := target } else c.next))

/-! ### DLOAD (R234) -/

/-- The records lie wholly where DLOAD may read them. -/
def State.dloadOk (s : State) (cl a n : Nat) : Bool :=
  match regionOf s.dev.part a (a + 64 * n - 1 : Nat) with
  | some (.operand c) => c == cl
  | some .md => s.granulesOk (s.stageOfDie (cl / 16)) false a (a + 64 * n - 1)
  | _ => false

/-- The status a DLOAD ends with, 0 when it copies. -/
def State.dloadStatus (s : State) (cl slot a n : Nat) : Nat :=
  if 64 < slot + n || a % 64 ≠ 0 then 0x0101
  else if !s.dloadOk cl a n then 0x0104
  else if s.poisoned a (64 * n) then 0x0702 else 0

def State.dloaded (s : State) (cl slot a n : Nat) : State :=
  let c := s.cluster cl
  let st := s.dloadStatus cl slot a n
  if st ≠ 0 then (s.advance cl).stepFault cl st 0 c.pc 0 (st = 0x0702)
  else
    s.setCluster cl ({ c with dslots := (List.range n).foldl (fun t k =>
      Table.set 0 t (slot + k) (s.readLE (a + 64 * k) 64)) c.dslots }).next

def execDload (cl : ClusterId) (slot areg cnt : Nat) (s : State) : Res :=
  guarded (s.canIssue cl (TileWord.dload slot areg cnt)) s
    (s.racing cl 0 fun s => s.dloaded cl slot ((s.cluster cl).sreg areg).toNat (cnt + 1))

/-! ### Remote signals (R249, R393) -/

/-- Counts a transaction or reply discarded for its epoch (R393, R481, R482). -/
def State.addStale (s : State) (die : Nat) : State :=
  let d := s.die die
  let r := satAdd 32 d.epochStale 1
  let s' := s.setDie die { d with epochStale := r.1, ovf := d.ovf.set 3 (nth false d.ovf 3 || r.2) }
  (if r.2 && !nth false d.ovf 3 then s'.event 1 else s').addSummary die 1

/-- A remote signal reaches its target, which adds its count and acknowledges it; a signal of an old epoch is
discarded. -/
def execRemoteSignalArrival (index : Nat) (s : State) : Res :=
  match s.signals[index]? with
  | none => .next s
  | some g =>
    let s := { s with signals := s.signals.eraseIdx index }
    if g.epoch ≠ (s.stage g.stage).epoch then .next (s.addStale (g.dst / 16))
    else .next { s.setCluster g.dst ((s.cluster g.dst).addSem g.sem g.count) with acks := s.acks ++ [g] }

/-- An acknowledgement reaches the sender of a remote signal. -/
def execSignalAckArrival (index : Nat) (s : State) : Res :=
  match s.acks[index]? with
  | none => .next s
  | some g =>
    let s := { s with acks := s.acks.eraseIdx index }
    if g.epoch ≠ (s.stage g.stage).epoch then .next (s.addStale (g.src / 16))
    else
      let c := s.cluster g.src
      .next ((s.setCluster g.src { c with outSignals := c.outSignals - 1 }).settleHalt g.src)

/-! ### START and ABORT (R221, R251) -/

/-- Rank of a die among the dies of its stage (R221). -/
def rankOf (dies : List Nat) (die : Nat) : Nat := dies.countP (· < die)

/-- START on one sequencer. -/
def State.started (s : State) (cl entry : Nat) : State :=
  let c := s.cluster cl
  let g := s.stageOfDie (cl / 16)
  let dies := s.stageDies g
  let arg := nth [] c.args entry
  let step := (s.stage g).step
  let m := match step with
    | some t => 16 * t.groups.length
    | none => 0
  let v : Nat → Nat := fun r =>
    if r = 1 then m
    else if r = 2 then (step.map (·.table)).getD 0
    else if r = 3 then (step.map (·.passIdx)).getD 0
    else if r = 4 then (step.map (·.tuneN)).getD 0
    else if r < 9 then nth 0 arg (r - 5)
    else if r = 9 then 16 * rankOf dies (cl / 16) + cl % 16
    else if r = 10 then dies.length else 0
  let t : Arr → Arr := fun a => { a with tileD := none, tileW := none }
  s.setCluster cl
    { c with
      pc := nth 0 c.entries entry
      entryReg := entry
      sregs := (List.range 10).foldl (fun b k => Table.set 0 b (k + 1) (BitVec.ofNat 64 (v (k + 1)))) []
      sems := []
      st := .running
      halting := false
      arrived := none
      rounds := []
      faultStatus := 0
      faultUnit := 0
      faultPc := 0
      faultSlot := 0
      t0 := t c.t0
      t1 := t c.t1
      t2 := t c.t2
      asm := [] }

/-- START (R221): a sequencer of a stage starts at an entry of its program. -/
def execStart (cl : ClusterId) (entry : Nat) (s : State) : Res :=
  guarded (s.stageOfDie (cl / 16) < 16 && (s.cluster cl).st != .running) s (s.started cl entry)

/-- The sequencers of a stage. -/
def State.stageClusters (s : State) (g : Nat) : List ClusterId :=
  (s.stageDies g).flatMap fun d => (List.range 16).map fun c => 16 * d + c

end Sys2Proof.Machine
end

