-- ==== Sys2Proof/Machine/Arrays.lean ====
section
/-! DEFINITION. Arrays.lean: the tile arrays: MM-family products, chunk sums, chains and their insertion, opening,
merging and release (ch. Tile arrays, ch. Accumulator memory). -/

namespace Sys2Proof.Machine

/-! ### Accumulator nodes (R139, R142) -/

/-- A value of a tree: hi and lo parts; lo is 0 outside pair mode. -/
abbrev Pair := BitVec 32 × BitVec 32

def word32 (n : Nat) : BitVec 32 := BitVec.ofNat 32 n

/-- pair_add (R139). -/
def pairAdd (a b : Pair) : Pair :=
  let ah := a.1.toNat
  let al := a.2.toNat
  let bh := b.1.toNat
  let bl := b.2.toNat
  let s := Fp.acc ah bh
  let bv := Fp.accSub s ah
  let av := Fp.accSub s bv
  let e := Fp.acc (Fp.accSub ah av) (Fp.accSub bh bv)
  (word32 s, word32 (Fp.acc (Fp.acc al bl) e))

/-- One accumulator node, in pair arithmetic or plain. -/
def node (pair : Bool) (a b : Pair) : Pair :=
  if pair then pairAdd a b else (word32 (Fp.acc a.1.toNat b.1.toNat), 0)

/-- The chunk tree over eight partials (R111). -/
def chunkTree (pair : Bool) (p : Nat → Pair) : Pair :=
  node pair (node pair (node pair (p 0) (p 1)) (node pair (p 2) (p 3)))
    (node pair (node pair (p 4) (p 5)) (node pair (p 6) (p 7)))

/-- A brick partial or correction partial i * 2^k (R110). -/
def partialOf (i : Int) (k : Int) : BitVec 32 :=
  if i = 0 || (Nat.log2 i.natAbs : Int) + k < -126 then 0 else word32 (Fp.round .f32 0 (i < 0) i.natAbs k false).1

/-! ### Reading bricks (R109, R198) -/

/-- A brick as an array reads it: a status, the brick with its sums in a role, and its reserved T2 codes. -/
def State.readBrick (s : State) (d : Desc) (role : Nat) (i0 : List Int) : Nat × Brick × Nat :=
  let cells := (List.range 256).map fun p => s.cell d (plus i0 [p % 16, p / 16, 0, 0, 0, 0])
  let h := cells.headD ⟨0, 0, 0, 0, true⟩
  let codes := cells.map (·.code)
  let kept := d.sums ≠ 0 && d.sums = role && d.inb i0 && d.inb (plus i0 [15, 15, 0, 0, 0, 0])
  let st := ((cells.find? fun c => c.st ≠ 0).map (·.st)).getD 0
  let st := if kept && s.poisoned (d.sumAddr (d.offset i0)) 32 then 0x0702 else st
  let sums :=
    if kept then
      (List.range 16).map fun k => signed (s.readLE (d.sumAddr (d.offset i0) + 2 * k) 2) 16
    else brickSums d.ty role codes
  (st, ⟨h.zero, h.e, h.zp, codes, sums⟩, cells.countP (Cell.reserved d))

/-- The bricks of a block, row by row: the worst status (SCALE_INVALID before SCALE_SKEW, R203), the bricks, and
the reserved codes decoded before the first brick that fails. -/
def State.readBricks (s : State) (d : Desc) (role : Nat) (o : List Int) (rows cols : Nat) : Nat × List Brick × Nat :=
  let all := (List.range rows).flatMap fun r => (List.range cols).map fun c =>
    s.readBrick d role (plus o [16 * c, 16 * r, 0, 0, 0, 0])
  let st := all.map (·.1)
  (if st.contains 0x0702 then 0x0702 else if st.contains 0x0204 then 0x0204 else if st.contains 0x0201 then 0x0201 else 0,
   all.map (·.2.1), ((all.takeWhile (·.1 = 0)).map (·.2.2)).sum)

def Brick.none : Brick := ⟨true, 0, 0, [], []⟩

/-! ### Format pairs (R105) and sums (R107) -/

/-- Orientation: 0 MM, 1 MM.T, 2 MM.W. -/
def pairOk (orient a b : Nat) : Bool :=
  let has : Nat → Nat → Bool := fun x y => (a = x && b = y) || (a = y && b = x)
  let lane : Nat → Bool := fun x => x = tyN4 || x = tyU4Z || x = tyT2 || x = tyG4
  if orient = 2 then has tyG4 tyN4 || has tyG4 tyU4Z || has tyG4 tyG4
  else lane a && lane b && !has tyG4 tyG4

/-- Role of the sums over the reduction index: of the stationary and of the streamed operand. -/
def statRole (orient : Nat) : Nat := if orient = 1 then 1 else 2
def strmRole (orient : Nat) : Nat := if orient = 2 then 2 else 1

/-- The sums that a U4Z partner needs are there (R107): formats and roles of stationary and streamed operands. -/
def sumsOk (orient sf ssum xf xsum : Nat) : Bool :=
  orient = 2 ||
    ((xf ≠ tyU4Z || sf = tyG4 || ssum = statRole orient) && (sf ≠ tyU4Z || xf = tyG4 || xsum = strmRole orient))

/-! ### The product (R102, R110, R111) -/

/-- Element codes of a segment as integers: element `e` of segment position by `at`. -/
def Brick.ints (ty : Nat) (b : Brick) : List Int := b.codes.map (laneInt ty)

/-- Exact sum of products over the 16 reduction positions: `sx`, `sw` pick positions of each brick. -/
def dot16 (x w : List Int) (px pw : Nat → Nat) : Int :=
  (List.range 16).foldl (fun a k => a + nth 0 x (px k) * nth 0 w (pw k)) 0

/-- The correction bracket K of a brick pair (R85). -/
def corrK (xf wf : Nat) (x w : Brick) (sx sw : Int) : Int :=
  let zx : Int := if xf = tyU4Z then x.zp else 0
  let zw : Int := if wf = tyU4Z then w.zp else 0
  16 * zx * zw - zx * sw - zw * sx

/-- Raw and correction partial of a segment for output (v, n): bricks of the streamed and stationary operands,
their integers, and the row or column of each that the output takes. -/
def segment (orient xf wf : Nat) (x w : Brick) (xi wi : List Int) (v n : Nat) : BitVec 32 × BitVec 32 :=
  if x.zero || w.zero then (0, 0)
  else
    let k : Int := laneUnit xf + laneUnit wf + x.e + w.e - 254
    let px : Nat → Nat := fun j => if orient = 2 then 16 * j + v else 16 * v + j
    let pw : Nat → Nat := fun j => if orient = 1 then 16 * n + j else 16 * j + n
    let i := dot16 xi wi px pw
    let sum : Nat → Brick → List Int → (Nat → Nat) → Nat → Int := fun f b l p r =>
      if f = tyG4 then (List.range 16).foldl (fun a j => a + nth 0 l (p j)) 0 else nth 0 b.sums r
    let c := if xf = tyU4Z || wf = tyU4Z then
        partialOf (corrK xf wf x w (sum xf x xi px v) (sum wf w wi pw n)) k
      else 0
    (partialOf i k, c)

/-- Output rows of an instruction: raw and correction chunk sums of 128 columns for each streamed vector. -/
def products (orient xf wf vn nseg : Nat) (pair : Bool) (xs ws : List Brick) : List (List Pair × List Pair) :=
  let xi := xs.map (Brick.ints xf)
  let wi := ws.map (Brick.ints wf)
  (List.range vn).map fun v =>
    let cols := (List.range 128).map fun n =>
      let seg : Nat → BitVec 32 × BitVec 32 := fun j =>
        if nseg ≤ j then (0, 0)
        else
          -- streamed bricks lie vector by reduction, in MM.W reduction by vector
          let xb := if orient = 2 then j * (vn / 16) + v / 16 else v / 16 * nseg + j
          -- stationary bricks lie eight to a row of the register
          let wb := if orient = 1 then 8 * (n / 16) + j else 8 * j + n / 16
          segment orient xf wf (nth Brick.none xs xb) (nth Brick.none ws wb) (nth [] xi xb) (nth [] wi wb) (v % 16) (n % 16)
      let p := (List.range 8).map seg
      (chunkTree pair fun j => ((nth (0, 0) p j).1, 0), chunkTree pair fun j => ((nth (0, 0) p j).2, 0))
    (cols.map (·.1), cols.map (·.2))

/-! ### MM-family instructions -/

/-- The die index and cluster of an array's operands must be its own (R99); a stationary descriptor's checks. -/
def Cluster.desc (c : Cluster) (slot : Nat) : Desc := Desc.ofNat (c.dslot slot)

/-- Block of a bricked operand starts at a multiple of 16 (R231). -/
def aligned16 (o : List Int) : Bool := nth 0 o 0 % 16 = 0 && nth 0 o 1 % 16 = 0

/-- The map and side tensor of a stationary weight (R89, R91): address of the map and reduction size of the
weight; `side` is the address of the side tensor's first element, its header lying 64 bytes below. -/
def State.outlierCheck (s : State) (map k : Nat) (side : Option Nat) : Nat :=
  if !s.mapOk map || s.readLE (map + 4) 4 ≠ k then 0x0205
  else
    match side with
    | some a => if s.readLE (a - 64) 5 ≠ map || s.readLE (a - 56) 2 ≠ s.readLE map 2 then 0x0205 else 0
    | none => 0

/-- The stationary tile of a stream; the stream is D in a unified stage (R120). -/
def Arr.tile (a : Arr) (w : Bool) : Option Tile := if w then a.tileW else a.tileD
def Arr.setTile (a : Arr) (w : Bool) (t : Option Tile) : Arr := if w then { a with tileW := t } else { a with tileD := t }

/-- The stage of a cluster runs split (R118). -/
def State.split (s : State) (cl : ClusterId) : Bool :=
  match (s.stage (s.stageOfDie (cl / 16))).cfg with
  | some c => c.split
  | none => false

/-- The stream an instruction belongs to: split mode only, T1 and T2 (R119, R120). -/
def State.streamOf (s : State) (cl : ClusterId) (array : Nat) (stream : Bool) : Bool :=
  stream && s.split cl && array ≠ 0

/-- What stands for the stationary operand in the checks: format, sum role, map, reduction size. -/
structure StatInfo where
  ty : Nat
  sums : Nat
  omap : Nat
  kdim : Nat
  deriving DecidableEq, Repr

/-- Checks of an MM-family instruction before any data moves: a status, 0 when they pass. Descriptors come first,
the side tensor's where one is named (R191, R237); the order within step 7 is the model's (log 68). -/
def State.mmCheck (s : State) (orient : Nat) (i : Issue) (f : MmF) : Nat :=
  let c := s.cluster i.cl
  let a := c.arr f.array
  let w := s.streamOf i.cl f.array f.stream
  let sd := c.desc f.sdesc
  let xd := c.desc f.xdesc
  let sv := if f.keep then 0 else s.validate i.cl .array false false sd
  let xv := s.validate i.cl .array false false xd
  let st : Option StatInfo :=
    if f.keep then (a.tile w).map fun t => ⟨t.fmt, t.sums, t.outlier, t.kdim⟩
    else some ⟨sd.ty, sd.sums, if sd.ty = tyG4 then 0 else sd.omap, sd.sizeOf 1⟩
  let od := c.desc f.osdesc
  let ov := if f.osen && orient ≠ 1 then s.validate i.cl .array false false od else 0
  if sv ≠ 0 then sv
  else if xv ≠ 0 then xv
  else if ov ≠ 0 then ov
  else
    match st with
    | none => 0x0104
    | some t =>
      let useSide := orient = 0 && t.omap ≠ 0
      if !pairOk orient t.ty xd.ty || (xd.ty ≠ tyG4 && xd.omap ≠ 0) || (orient = 2 && t.omap ≠ 0) ||
          !sumsOk orient t.ty t.sums xd.ty xd.sums || (useSide && !f.osen) then 0x0104
      else if (!f.keep && groupPast f.sreg sd.rank) || groupPast f.xreg xd.rank ||
          (f.osen && orient ≠ 1 && groupPast f.osreg od.rank) then 0x0103
      else if (!f.keep && !aligned16 (originOf c f.sreg sd.rank)) || !aligned16 (originOf c f.xreg xd.rank) then 0x0101
      else
        let oc := if t.omap ≠ 0 then s.outlierCheck t.omap t.kdim (if useSide then some od.base else none) else 0
        if oc ≠ 0 then oc
        else if (t.ty = tyU4Z || xd.ty = tyU4Z) && (a.chain f.chain).st = 1 && !(a.chain f.chain).corr then 0x0203
        else 0

/-- Loads the named stationary tile: 8 by 8 bricks, positions beyond D zero bricks (R98), with the sums of the role
its descriptor names, which R236 records with the tile. -/
def State.loadTile (s : State) (orient : Nat) (i : Issue) (f : MmF) : Nat × Tile × Nat :=
  let c := s.cluster i.cl
  let d := c.desc f.sdesc
  let o := originOf c f.sreg d.rank
  let n := f.dm1 + 1
  let r := if orient = 1 then s.readBricks d d.sums o 8 n else s.readBricks d d.sums o n 8
  let bricks := if orient = 1 then
      (List.range 8).flatMap fun a => (List.range 8).map fun b => if b < n then nth Brick.none r.2.1 (a * n + b) else Brick.none
    else r.2.1 ++ List.replicate (64 - 8 * n) Brick.none
  (r.1, { fmt := d.ty, sums := d.sums, outlier := if d.ty = tyG4 then 0 else d.omap, kdim := d.sizeOf 1, bricks := bricks }, r.2.2)

/-- A failed MM-family instruction joins its queue with its status, having delivered nothing. DESC_CTL has no
LAST_AGENT code for an array, so that field is a free value (R206; DESIGN CHOICE, log 11). -/
def State.mmFail (s : State) (op : Nat) (i : Issue) (f : MmF) (st : Nat) : State :=
  let e := s.entryFor i op f.stream f.chain
  let x := s.free
  (x.2.descFault i.cl (x.1.toNat % 4) st).push i.cl (f.array + 1) { e with status := st, parity := st = 0x0702 }

/-- An MM-family instruction at issue: its checks, its tile, and the chunk sums it will deliver. -/
def State.mmIssue (s : State) (op orient : Nat) (i : Issue) (f : MmF) : State :=
  let st := s.mmCheck orient i f
  if st ≠ 0 then s.mmFail op i f st
  else
    let w := s.streamOf i.cl f.array f.stream
    let c := s.cluster i.cl
    let a := c.arr f.array
    let ld : Nat × Option Tile × Nat :=
      if f.keep then (0, a.tile w, 0)
      else
        let l := s.loadTile orient i f
        (l.1, if l.1 = 0 then some l.2.1 else none, l.2.2)
    let s := s.setCluster i.cl (c.setArr f.array (a.setTile w ld.2.1))
    let xd := c.desc f.xdesc
    let xo := originOf c f.xreg xd.rank
    let dies := s.dev.part.diesOf (xd :: if f.keep then [] else [c.desc f.sdesc])
    let vb := f.vm1 + 1
    let n := f.dm1 + 1
    let xr := if orient = 2 then s.readBricks xd (strmRole orient) xo n vb else s.readBricks xd (strmRole orient) xo vb n
    let bad := if ld.1 = 0x0702 || xr.1 = 0x0702 then 0x0702
      else if ld.1 = 0x0204 || xr.1 = 0x0204 then 0x0204
      else if ld.1 = 0x0201 || xr.1 = 0x0201 then 0x0201 else 0
    -- under SCALE_INVALID no streamed element has been decoded (R203)
    let s := s.addReserved (i.cl / 16) (ld.2.2 + if ld.1 ≠ 0 || bad = 0x0204 then 0 else xr.2.2)
    if bad = 0x0201 then
      -- the chain is poisoned when the instruction's turn comes (R204)
      s.push i.cl (f.array + 1)
        { s.entryFor i op w f.chain with newRun := !f.keep, waitsTile := !f.keep, carries := true, poison := bad, dies := dies }
    else if bad ≠ 0 then s.mmFail op i f bad
    else
      match ld.2.1 with
      | none => s.mmFail op i f 0x0104
      | some t =>
        let rows := products orient xd.ty t.fmt (16 * vb) n (a.chain f.chain).pair xr.2.1 t.bricks
        s.push i.cl (f.array + 1)
          { s.entryFor i op w f.chain with
            rows := rows, newRun := !f.keep, waitsTile := !f.keep, carries := true, dies := dies }

/-- In a unified stage that runs a tuning pass, backward work waits until the forward work that has issued is complete on
every array of the stage (R119): MM is forward work, MM.T, MM.W and GDRAIN are backward work. DEDUCED, log 73. -/
def State.forwardOver (s : State) (cl : ClusterId) : Bool :=
  let g := s.stageOfDie (cl / 16)
  s.split cl || (match (s.stage g).step with
    | some t => t.pass.isNone
    | none => true) ||
    (s.stageClusters g).all fun k => (List.range 3).all fun t => ((s.cluster k).arr t).queue.all fun e => e.opcode ≠ 0x10 || e.done

def execMm (i : Issue) (f : MmF) (s : State) : Res :=
  guarded (s.canIssue i.cl (TileWord.mm 0x10 i f) && s.room i.cl (f.array + 1)) s
    (s.racing i.cl (f.array + 1) fun s => s.mmIssue 0x10 0 i f)
def execMmT (i : Issue) (f : MmF) (s : State) : Res :=
  guarded (s.canIssue i.cl (TileWord.mm 0x11 i f) && s.room i.cl (f.array + 1) && s.forwardOver i.cl) s
    (s.racing i.cl (f.array + 1) fun s => s.mmIssue 0x11 1 i f)
def execMmW (i : Issue) (f : MmF) (s : State) : Res :=
  guarded (s.canIssue i.cl (TileWord.mm 0x12 i f) && s.room i.cl (f.array + 1) && s.forwardOver i.cl) s
    (s.racing i.cl (f.array + 1) fun s => s.mmIssue 0x12 2 i f)

/-- Poisons a chain (R124, R146). -/
def State.poisonChain (s : State) (cl t b cause : Nat) : State :=
  let c := s.cluster cl
  let a := c.arr t
  s.setCluster cl (c.setArr t (a.setChain b ((a.chain b).poison cause)))

/-! ### Loads and insertion (R97, R129, R143) -/

/-- The first waiting entry no longer waits for its tile. -/
def loadFirst : List Issued → List Issued
  | [] => []
  | e :: r => if e.waitsTile then { e with waitsTile := false } :: r else e :: loadFirst r

def execStationaryLoadComplete (cl : ClusterId) (array : Nat) (s : State) : Res :=
  let c := s.cluster cl
  let a := c.arr array
  .next (s.setCluster cl (c.setArr array { a with queue := loadFirst a.queue }))

/-- An entry has a chunk sum left to insert. -/
def Issued.ready (e : Issued) : Bool := e.busy && !e.waitsTile

/-- Index of the entry that the array runs (R121): issue order; in a split array the run that has begun goes
on, and at a run boundary the stream whose turn it is comes first. -/
def Arr.running (a : Arr) (split : Bool) : Option Nat :=
  let q := a.queue
  let first : Bool → Option Nat := fun w =>
    (List.range q.length).find? fun k => match q[k]? with
      | some e => e.busy && e.stream == w
      | none => false
  let ok : Option Nat → Option Nat := fun x => x.bind fun k => match q[k]? with
    | some e => if e.ready then some k else none
    | none => none
  if !split then
    ok ((List.range q.length).find? fun k => match q[k]? with
      | some e => e.busy
      | none => false)
  else
    match (List.range q.length).find? fun k => match q[k]? with
      | some e => e.busy && 0 < e.row
      | none => false with
    | some k => some k
    | none =>
      let cont := (first (!a.nextW)).bind fun k => match q[k]? with
        | some e => if e.newRun then none else some k
        | none => none
      match ok cont with
      | some k => some k
      | none =>
        match ok (first a.nextW) with
        | some k => some k
        | none => ok (first (!a.nextW))

/-- The level at which a value placed at level `k` comes to rest, none beyond the depth (R129). -/
def restLevel (occ depth : Nat) : Nat → Nat → Option Nat
  | 0, _ => none
  | n + 1, k => if depth < k then none else if bit occ k then restLevel occ depth n (k + 1) else some k

/-- Occupancy after an insertion from level `k` to its resting level `m`. -/
def occAfter (occ k m : Nat) : Nat := (List.range m).foldl (fun o j => if k ≤ j then setBits o j 1 0 else o) (setBits occ m 1 1)

/-- A word of a level: hi and, in pair mode, lo. -/
def State.level (s : State) (cl t base : Nat) (r : Chain) (k row n : Nat) : Pair :=
  (word32 (s.readLE (slotWord cl t (base + k) row n) 4),
   if r.pair then word32 (s.readLE (slotWord cl t (base + r.depth + 1 + k) row n) 4) else 0)

/-- Writes a row of a level; a write of whole lines clears their poison (R126, R472). -/
def State.setLevel (s : State) (cl t base : Nat) (r : Chain) (k row : Nat) (vals : List Pair) : State :=
  let put : State → Nat → (Pair → BitVec 32) → State := fun s slot f =>
    (s.writeBytes (slotWord cl t slot row 0) (vals.flatMap fun v => toBytes 4 (f v).toNat)).unpoison
      (slotWord cl t slot row 0) (4 * vals.length)
  let s := put s (base + k) (·.1)
  if r.pair then put s (base + r.depth + 1 + k) (·.2) else s

/-- Places a row of values at level `k` of a tree at `base`, carrying into level `m` (R129). -/
def State.insertAt (s : State) (cl t base : Nat) (r : Chain) (k m row : Nat) (vals : List Pair) : State :=
  s.setLevel cl t base r m row ((List.range 128).map fun n =>
    (List.range m).foldl (fun x j => if j < k then x else node r.pair (s.level cl t base r j row n) x) (nth (0, 0) vals n))

/-- A poisoned line lies in a row of the chain's occupied levels below `m` (R123). -/
def State.slotPoisoned (s : State) (cl t : Nat) (r : Chain) (b m row : Nat) : Bool :=
  (List.range m).any fun k => bit r.occ k &&
    ([b + k, b + r.depth + 1 + k, r.corrBase + k, r.corrBase + r.depth + 1 + k].zip
      [true, r.pair, r.corr, r.corr && r.pair]).any fun p => p.2 && s.poisoned (slotWord cl t p.1 row 0) 0x200

/-- Inserts the next row of an entry into its chain, or finds why it cannot: a poisoned line of the chain table among the reasons
(R474). An entry that failed its tag check
delivers nothing and poisons its chain, if that is OPEN (R204, log 69). -/
def State.insertRow (s : State) (cl t k : Nat) (e : Issued) : State :=
  let c := s.cluster cl
  let a := c.arr t
  let r := a.chain e.base
  let v := e.rows.length / 16 - 1
  let setE : Cluster → Issued → Cluster := fun c e' =>
    c.setArr t { c.arr t with queue := (c.arr t).queue.set k e' }
  let fail : Nat → Chain → Bool → State := fun st r' par =>
    s.setCluster cl (setE (c.setArr t (a.setChain e.base r')) { e with status := st, parity := par, poison := 0 })
  let bad := s.slotPoisoned cl t r e.base ((restLevel r.occ r.depth 9 0).getD 0) e.row
  if e.poison ≠ 0 then
    let x := (fail e.poison (r.poison e.poison) false).free
    x.2.descFault cl (x.1.toNat % 4) e.poison
  else if s.poisoned (chainAddr cl t e.base) 8 then fail 0x0702 r true
  else if r.st = 2 then fail 0x0206 r (r.cause = 0x0702)
  else if r.st ≠ 1 then fail 0x0203 r false
  else if r.rowsSet && r.rows ≠ v then fail 0x0203 (r.poison 0x0203) false
  else if bad then fail 0x0206 (r.poison 0x0702) true
  else
    match restLevel r.occ r.depth 9 0 with
    | none => fail 0x0203 (r.poison 0x0203) false
    | some m =>
      let vals := nth ([], []) e.rows e.row
      let last := e.row + 1 = e.rows.length
      let r' := { r with rows := v, rowsSet := true
                         occ := if last then occAfter r.occ 0 m else r.occ
                         count := if last then (r.count + 1) % 256 else r.count }
      let c' := setE (c.setArr t { a.setChain e.base r' with nextW := !e.stream }) { e with row := e.row + 1 }
      let s := (s.setCluster cl c').insertAt cl t e.base r 0 m e.row vals.1
      if r.corr then s.insertAt cl t r.corrBase r 0 m e.row vals.2 else s

/-- CHUNK_SUM_INSERT (R129): the array delivers the next chunk sum of the instruction it runs. -/
def execChunkSumInsert (cl : ClusterId) (array : Nat) (s : State) : Res :=
  let a := (s.cluster cl).arr array
  match a.running (s.split cl && array ≠ 0) with
  | some k => match a.queue[k]? with
    | some e => .next (s.insertRow cl array k e)
    | none => .next s
  | none => .next s

/-! ### ACC-family instructions (R126, R132, R133, R146) -/

/-- An ACC-family entry with its status, and the slots that it is in flight on. -/
def State.accEntry (s : State) (op : Nat) (i : Issue) (f : AccF) (st : Nat) (par : Bool) (slots : List Nat := []) : State :=
  s.push i.cl (f.array + 1)
    { s.entryFor i op (s.streamOf i.cl f.array f.stream) f.base with status := st, parity := par, slots := slots }

/-- No MM-family instruction issued earlier to an array and stream still has a chunk sum to deliver: the place of
ACC.OPEN and ACC.RELEASE in the issue order (R238). -/
def State.inOrder (s : State) (cl t : Nat) (stream : Bool) : Bool :=
  !(((s.cluster cl).arr t).queue.any fun e => e.busy && e.stream == s.streamOf cl t stream)

/-- The record ACC.OPEN makes; without a correction chain CORR_BASE is 0 (log 70). -/
def accRecord (f : AccF) : Chain :=
  { Chain.free with corrBase := if f.corr then f.cbase else 0, corr := f.corr, pair := f.pair, depth := f.depth, st := 1 }

def State.accOpen (s : State) (i : Issue) (f : AccF) : State :=
  let c := s.cluster i.cl
  let a := c.arr f.array
  let st := layoutOf f.base (accRecord f) (a.held 64)
  (if st = 0 then s.setCluster i.cl (c.setArr f.array (a.setChain f.base (accRecord f))) else s).accEntry 0x18 i f st false

def execAccOpen (i : Issue) (f : AccF) (s : State) : Res :=
  guarded (s.canIssue i.cl (TileWord.acc 0x18 i f) && s.room i.cl (f.array + 1) && s.inOrder i.cl f.array f.stream) s
    (s.accOpen i f)

/-- Levels of the source, folded into the target's occupancy: the new occupancy, none when a level beyond the
depth would be needed (R133). -/
def foldOcc (depth src : Nat) : List Nat → Nat → Option Nat
  | [], occ => some occ
  | k :: r, occ =>
    if bit src k then
      match restLevel occ depth 9 k with
      | some m => foldOcc depth src r (occAfter occ k m)
      | none => none
    else foldOcc depth src r occ

/-- Merges one level of a source tree into a target tree, over the 128 slot rows. -/
def State.mergeLevel (s : State) (cl t tb sb : Nat) (tr sr : Chain) (occ k : Nat) : State :=
  match restLevel occ tr.depth 9 k with
  | some m => (List.range 128).foldl (fun s row =>
      s.insertAt cl t tb tr k m row ((List.range 128).map (s.level cl t sb sr k row))) s
  | none => s

/-- Merges every occupied level in ascending order (R132). -/
def State.mergeTree (s : State) (cl t tb sb : Nat) (tr sr : Chain) : State :=
  ((List.range 8).foldl (fun (p : State × Nat) k =>
    if bit sr.occ k then
      match restLevel p.2 tr.depth 9 k with
      | some m => (p.1.mergeLevel cl t tb sb tr sr p.2 k, occAfter p.2 k m)
      | none => p
    else p) (s, tr.occ)).1

/-- ACC.MERGE on two records: the status, the target's and the source's new records (R132, R133). `tbad` and `sbad`
say that a poisoned line lies in the slots of the open target or source, which poisons that chain (R124). A merge of a
POISONED chain adds nothing, and leaves the target's OCC, COUNT, ROWS and ROWS_SET as they were. DESIGN CHOICE, log 70. -/
def mergeRecords (same : Bool) (tr sr : Chain) (tbad sbad : Bool) : Nat × Chain × Chain :=
  let live : Chain → Bool := fun r => r.st = 1 || r.st = 2
  if same || tr.pair ≠ sr.pair || tr.corr ≠ sr.corr || (tr.rowsSet && sr.rowsSet && tr.rows ≠ sr.rows) ||
      !live tr || !live sr then (0x0203, tr, sr)
  else if tr.st = 2 || sr.st = 2 || tbad || sbad then
    let t := if tbad then tr.poison 0x0702 else tr
    let q := if sbad then sr.poison 0x0702 else sr
    (0x0206, { t with st := 2, cause := if t.st = 2 && (t.cause ≠ 0 || q.st ≠ 2) then t.cause else q.cause }, Chain.free)
  else
    match foldOcc tr.depth sr.occ (List.range 8) tr.occ with
    | none => (0x0203, tr.poison 0x0203, sr)
    | some occ =>
      (0, { tr with occ := occ, count := (tr.count + sr.count) % 256, rows := if tr.rowsSet then tr.rows else sr.rows
                    rowsSet := tr.rowsSet || sr.rowsSet }, Chain.free)

def State.accMerge (s : State) (i : Issue) (f : AccF) : State :=
  let c := s.cluster i.cl
  let a := c.arr f.array
  let tr := a.chain f.base
  let sr := a.chain f.cbase
  let bad : Chain → Nat → Bool := fun r b =>
    r.st = 1 && (List.range 128).any fun row => s.slotPoisoned i.cl f.array r b 8 row
  let m := if s.poisoned (chainAddr i.cl f.array f.base) 8 || s.poisoned (chainAddr i.cl f.array f.cbase) 8 then (0x0702, tr, sr)
    else mergeRecords (f.base = f.cbase) tr sr (bad tr f.base) (bad sr f.cbase)
  let s1 := if m.1 = 0 then
      let x := s.mergeTree i.cl f.array f.base f.cbase tr sr
      if tr.corr then x.mergeTree i.cl f.array tr.corrBase sr.corrBase tr sr else x
    else s
  let c1 := s1.cluster i.cl
  let a1 := ((c1.arr f.array).setChain f.base m.2.1).setChain f.cbase m.2.2
  (s1.setCluster i.cl (c1.setArr f.array (if f.base = f.cbase then c1.arr f.array else a1))).accEntry 0x19 i f m.1
    (m.1 = 0x0702 || (m.1 = 0x0206 && m.2.1.cause = 0x0702)) ((tr.slots f.base ++ sr.slots f.cbase).map (slotId i.cl f.array))

/-- Slots of an accumulator window that positions of an operand touch, with the window's cluster and array. A read
touches in-bounds positions and the ones that CLAMP names, a write in-bounds and written padding positions. -/
def State.windowSlots (s : State) (d : Desc) (write : Bool) (is : List (List Int)) : Option (ClusterId × Nat × List Nat) :=
  match regionAt s.dev.part d.base with
  | some (.acc cl t) =>
    let touched := is.filterMap fun i =>
      if d.inb i then some i
      else if write then (if d.padw && d.inPad i then some i else none)
      else if d.oob then some (d.clamp i) else none
    some (cl, t, (touched.map fun i => ((d.addr i).toNat - accWindow cl t) / 0x1_0000).eraseDups)
  | _ => none

/-- The same slots, as an entry names them. -/
def State.slotIds (s : State) (d : Desc) (write : Bool) (is : List (List Int)) : List Nat :=
  match s.windowSlots d write is with
  | some (cl, t, slots) => slots.map (slotId cl t)
  | none => []

/-- An accumulation or a merge is in flight on a slot that positions of an operand touch (R144). -/
def State.windowBusy (s : State) (d : Desc) (write : Bool) (is : List (List Int)) : Bool :=
  match s.windowSlots d write is with
  | some (cl, t, slots) => ((s.cluster cl).arr t).busyOn slots
  | none => false

/-- ACC.MERGE waits while an accumulation is in flight on either chain (R144). -/
def State.quiet (s : State) (cl t : Nat) (bases : List Nat) : Bool :=
  let a := (s.cluster cl).arr t
  !(a.queue.any fun e => e.busy && bases.contains e.base)

def execAccMerge (i : Issue) (f : AccF) (s : State) : Res :=
  guarded (s.canIssue i.cl (TileWord.acc 0x19 i f) && s.room i.cl (f.array + 1) &&
    s.quiet i.cl f.array [f.base, f.cbase]) s (s.accMerge i f)

/-- ACC.RELEASE makes any chain FREE, one that is FREE included (R146, log 70). -/
def State.accRelease (s : State) (i : Issue) (f : AccF) : State :=
  let c := s.cluster i.cl
  (s.setCluster i.cl (c.setArr f.array ((c.arr f.array).setChain f.base Chain.free))).accEntry 0x1A i f 0 false

def execAccRelease (i : Issue) (f : AccF) (s : State) : Res :=
  guarded (s.canIssue i.cl (TileWord.acc 0x1A i f) && s.room i.cl (f.array + 1) && s.quiet i.cl f.array [f.base] &&
    s.inOrder i.cl f.array f.stream) s (s.accRelease i f)

/-! ### Closing a chain (R130) -/

/-- The closed value of a tree at one position: +0 for a chain that has taken no chunk sum (R130, R239). -/
def State.closeTree (s : State) (cl t base : Nat) (r : Chain) (row n : Nat) : Pair :=
  ((List.range (r.depth + 1)).foldl (fun (acc : Option Pair) k =>
    if r.rowsSet && bit r.occ k then
      let l := s.level cl t base r k row n
      match acc with
      | none => some l
      | some v => some (node r.pair l v)
    else acc) none).getD (0, 0)

/-! ### Abort (R251) -/

/-- The started entry of an array runs to its end: its remaining rows are inserted. -/
def State.runOut (s : State) (cl t : Nat) : Nat → State
  | 0 => s
  | n + 1 =>
    let q := ((s.cluster cl).arr t).queue
    match (List.range q.length).findSome? fun k => q[k]?.bind fun e => if e.busy && 0 < e.row then some (k, e) else none with
    | some p => (s.insertRow cl t p.1 p.2).runOut cl t n
    | none => s

/-- What an abort does in a cluster, whose started array instructions have run out: no instruction issues, the started ones
complete without a step fault, the ones not started are discarded, and every chain becomes FREE (R251). -/
def Cluster.aborted (c : Cluster) : Cluster :=
  let all := c.t0.queue ++ c.t1.queue ++ c.t2.queue ++ c.drain0 ++ c.drain1 ++ c.drain2 ++ c.vec
  let c := (all.filter (·.done)).foldl Cluster.completed c
  let t : Arr → Arr := fun a => { a with chains := [], queue := [] }
  { c with st := if c.st == .running then .halted else c.st
           halting := false
           arrived := none
           t0 := t c.t0
           t1 := t c.t1
           t2 := t c.t2
           drain0 := []
           drain1 := []
           drain2 := []
           vec := [] }

/-- Abort of one sequencer. Its chain tables are written as a whole, every record as 0. -/
def State.abortCluster (s : State) (cl : ClusterId) : State :=
  let s := (List.range 3).foldl (fun s t => s.runOut cl t 128) s
  (s.setCluster cl (s.cluster cl).aborted).unpoison (chainAddr cl 0 0) 0x600

/-- One operation of a mover ends: one that has begun completes; one that has not is cancelled with STAGE_GONE in a stage
that is quiesced, which DESC_CTL records and its sequencer takes as a step fault (R206), and is discarded otherwise (R251). -/
def State.endMove (s : State) (gone : Bool) (n : Nat) (e : Issued) : State :=
  let done := s.setCluster e.cluster ((s.cluster e.cluster).completed e)
  if e.taken.isNone then done
  else if gone then (done.descFault e.cluster n 0x0501).stepFault e.cluster 0x0501 (8 + n) e.pc e.base false
  else s

/-- The operations of a mover end, in their order. -/
def State.endMoves (s : State) (gone : Bool) (n : Nat) (q : List Issued) : State := q.foldl (State.endMove · gone n) s

/-- Abort of a stage's step (R251). -/
def State.abortStep (s : State) (g : Nat) : State :=
  let gone : Bool := (s.stage g).st = 3
  let s := (s.stageDies g).foldl (fun s d =>
    let s := (s.endMoves gone 0 (s.die d).mover0).endMoves gone 1 (s.die d).mover1
    s.setDie d { s.die d with mover0 := [], mover1 := [] }) s
  let s := (s.stageClusters g).foldl State.abortCluster s
  match (s.stage g).step with
  | some t => s.setStage g { s.stage g with step := some { t with aborted := true } }
  | none => s

end Sys2Proof.Machine
end

