-- ==== Sys2Proof/Machine/Crypto.lean ====
section
/-! DEFINITION. Crypto.lean: the standard functions that the manual names: SHA-384 (FIPS 180-4), HMAC (RFC 2104), HKDF
(RFC 5869), AES-256 (FIPS 197), GCM (SP 800-38D), XTS with one 16-byte block or four (SP 800-38E), AES key wrap
(RFC 3394), and P-384 with ECDSA and ECDH (FIPS 186-5, SEC 1). -/

namespace Sys2Proof.Crypto

/-! ### Big-endian numbers -/

/-- The big-endian number of bytes, and `w` big-endian bytes of a number. -/
def beNat (b : Bytes) : Nat := b.foldl (fun n x => 256 * n + x.toNat) 0
def beBytes (w n : Nat) : Bytes := (toBytes w n).reverse
def xorBytes (a b : Bytes) : Bytes := List.zipWith (· ^^^ ·) a b

/-- A number from 256-bit parts, most significant first. -/
def join256 (l : List Nat) : Nat := l.foldl (fun n x => n * 2 ^ 256 + x) 0

/-- The list cut into pieces of `n`, with at most `fuel` pieces. -/
def pieces {α : Type} (n : Nat) : Nat → List α → List (List α)
  | 0, _ => []
  | k + 1, l => if l.isEmpty then [] else l.take n :: pieces n k (l.drop n)

/-! ### SHA-384 -/

def shaK : List Nat :=
  [0x428a2f98d728ae22, 0x7137449123ef65cd, 0xb5c0fbcfec4d3b2f, 0xe9b5dba58189dbbc, 0x3956c25bf348b538,
   0x59f111f1b605d019, 0x923f82a4af194f9b, 0xab1c5ed5da6d8118, 0xd807aa98a3030242, 0x12835b0145706fbe] ++
  [0x243185be4ee4b28c, 0x550c7dc3d5ffb4e2, 0x72be5d74f27b896f, 0x80deb1fe3b1696b1, 0x9bdc06a725c71235,
   0xc19bf174cf692694, 0xe49b69c19ef14ad2, 0xefbe4786384f25e3, 0x0fc19dc68b8cd5b5, 0x240ca1cc77ac9c65] ++
  [0x2de92c6f592b0275, 0x4a7484aa6ea6e483, 0x5cb0a9dcbd41fbd4, 0x76f988da831153b5, 0x983e5152ee66dfab,
   0xa831c66d2db43210, 0xb00327c898fb213f, 0xbf597fc7beef0ee4, 0xc6e00bf33da88fc2, 0xd5a79147930aa725] ++
  [0x06ca6351e003826f, 0x142929670a0e6e70, 0x27b70a8546d22ffc, 0x2e1b21385c26c926, 0x4d2c6dfc5ac42aed,
   0x53380d139d95b3df, 0x650a73548baf63de, 0x766a0abb3c77b2a8, 0x81c2c92e47edaee6, 0x92722c851482353b] ++
  [0xa2bfe8a14cf10364, 0xa81a664bbc423001, 0xc24b8b70d0f89791, 0xc76c51a30654be30, 0xd192e819d6ef5218,
   0xd69906245565a910, 0xf40e35855771202a, 0x106aa07032bbd1b8, 0x19a4c116b8d2d0c8, 0x1e376c085141ab53] ++
  [0x2748774cdf8eeb99, 0x34b0bcb5e19b48a8, 0x391c0cb3c5c95a63, 0x4ed8aa4ae3418acb, 0x5b9cca4f7763e373,
   0x682e6ff3d6b2b8a3, 0x748f82ee5defb2fc, 0x78a5636f43172f60, 0x84c87814a1f0ab72, 0x8cc702081a6439ec] ++
  [0x90befffa23631e28, 0xa4506cebde82bde9, 0xbef9a3f7b2c67915, 0xc67178f2e372532b, 0xca273eceea26619c,
   0xd186b8c721c0c207, 0xeada7dd6cde0eb1e, 0xf57d4f7fee6ed178, 0x06f067aa72176fba, 0x0a637dc5a2c898a6] ++
  [0x113f9804bef90dae, 0x1b710b35131c471b, 0x28db77f523047d84, 0x32caab7b40c72493, 0x3c9ebe0a15c9bebc,
   0x431d67c49c100d4c, 0x4cc5d4becb3e42b6, 0x597f299cfc657e2a, 0x5fcb6fab3ad6faec, 0x6c44198c4a475817]

def shaInit : List Nat :=
  [0xcbbb9d5dc1059ed8, 0x629a292a367cd507, 0x9159015a3070dd17, 0x152fecd8f70e5939,
   0x67332667ffc00b31, 0x8eb44a8768581511, 0xdb0c2e0d64f98fa7, 0x47b5481dbefa4fa4]

def m64 (n : Nat) : Nat := n % 2 ^ 64
def rotr (x n : Nat) : Nat := x / 2 ^ n ||| x * 2 ^ (64 - n) % 2 ^ 64

/-- The message schedule, newest word first. -/
def shaSchedule : Nat → List Nat → List Nat
  | 0, w => w
  | n + 1, w =>
    let s0 := let x := nth 0 w 14; rotr x 1 ^^^ rotr x 8 ^^^ (x / 2 ^ 7)
    let s1 := let x := nth 0 w 1; rotr x 19 ^^^ rotr x 61 ^^^ (x / 2 ^ 6)
    shaSchedule n (m64 (nth 0 w 15 + s0 + nth 0 w 6 + s1) :: w)

/-- The eight working variables. -/
structure ShaVars where
  a : Nat
  b : Nat
  c : Nat
  d : Nat
  e : Nat
  f : Nat
  g : Nat
  h : Nat

def shaRound (v : ShaVars) (kw : Nat) : ShaVars :=
  let s1 := rotr v.e 14 ^^^ rotr v.e 18 ^^^ rotr v.e 41
  let ch := (v.e &&& v.f) ^^^ ((2 ^ 64 - 1 - v.e) &&& v.g)
  let t1 := v.h + s1 + ch + kw
  let s0 := rotr v.a 28 ^^^ rotr v.a 34 ^^^ rotr v.a 39
  let mj := (v.a &&& v.b) ^^^ (v.a &&& v.c) ^^^ (v.b &&& v.c)
  ⟨m64 (t1 + s0 + mj), v.a, v.b, v.c, m64 (v.d + t1), v.e, v.f, v.g⟩

def shaBlock (h : List Nat) (b : Bytes) : List Nat :=
  let w := (shaSchedule 64 ((pieces 8 16 b).map beNat).reverse).reverse
  let g : Nat → Nat := fun i => nth 0 h i
  let v := (List.zipWith (· + ·) shaK w).foldl shaRound ⟨g 0, g 1, g 2, g 3, g 4, g 5, g 6, g 7⟩
  List.zipWith (fun x y => m64 (x + y)) h [v.a, v.b, v.c, v.d, v.e, v.f, v.g, v.h]

def sha384 (m : Bytes) : Bytes :=
  let n := m.length
  let p := m ++ (0x80 : Byte) :: zeros ((239 - n % 128) % 128) ++ beBytes 16 (8 * n)
  ((pieces 128 (n / 128 + 2) p).foldl shaBlock shaInit).flatMap (beBytes 8) |>.take 48

def hmac (key m : Bytes) : Bytes :=
  let k := padTo (if 128 < key.length then sha384 key else key) 128
  sha384 (k.map (· ^^^ 0x5C) ++ sha384 (k.map (· ^^^ 0x36) ++ m))

def hkdfExpand (prk info : Bytes) : Nat → Nat → Bytes → Bytes
  | 0, _, _ => []
  | n + 1, i, t =>
    let t := hmac prk (t ++ info ++ [BitVec.ofNat 8 i])
    t ++ hkdfExpand prk info n (i + 1) t

/-- HKDF-SHA-384; an absent salt is 48 zero bytes. -/
def hkdf (ikm salt info : Bytes) (len : Nat) : Bytes :=
  (hkdfExpand (hmac (if salt.isEmpty then zeros 48 else salt) ikm) info (ceilDiv len 48) 1 []).take len

/-! ### AES-256 -/

def sboxN : Nat := join256
  [0x16bb54b00f2d99416842e6bf0d89a18cdf2855cee9871e9b948ed9691198f8e1,
   0x9e1dc186b95735610ef6034866b53e708a8bbd4b1f74dde8c6b4a61c2e2578ba,
   0x08ae7a65eaf4566ca94ed58d6d37c8e779e4959162acd3c25c2406490a3a32e0,
   0xdb0b5ede14b8ee4688902a22dc4f816073195d643d7ea7c41744975fec130ccd,
   0xd2f3ff1021dab6bcf5389d928f40a351a89f3c507f02f94585334d43fbaaefd0,
   0xcf584c4a39becb6a5bb1fc20ed00d153842fe329b3d63b52a05a6e1b1a2c8309,
   0x75b227ebe28012079a059618c323c7041531d871f1e5a534ccf73f362693fdb7,
   0xc072a49cafa2d4adf04759fa7dc982ca76abd7fe2b670130c56f6bf27b777c63]
def invSboxN : Nat := join256
  [0x7d0c2155631469e126d677ba7e042b17619953833cbbebc8b0f52aae4d3be0a0,
   0xef9cc9939f7ae52d0d4ab519a97f51605fec8027591012b131c7078833a8dd1f,
   0xf45acd78fec0db9a2079d2c64b3e56fc1bbe18aa0e62b76f89c5291d711af147,
   0x6edf751ce837f9e28535ade72274ac9673e6b4f0cecff297eadc674f4111913a,
   0x6b8a130103bdafc1020f3fca8f1e2cd00645b3b80558e4f70ad3bc8c00abd890,
   0x849d8da75746155edab9edfd5048706c92b6655dcc5ca4d41698688664f6f872,
   0x25d18b6d49a25b76b224d92866a12e084ec3fa420b954cee3d23c2a632947b54,
   0xcbe9dec444438e3487ff2f9b8239e37cfbd7f3819ea340bf38a53630d56a0952]

def sbox (x : Nat) : Nat := bits sboxN (8 * x) 8
def invSbox (x : Nat) : Nat := bits invSboxN (8 * x) 8
def xtime (x : Nat) : Nat := (2 * x % 256) ^^^ (x / 128 * 0x1B)

/-- Key schedule of AES-256: words newest first, four bytes each. -/
def aesExpand : Nat → Nat → Nat → List (List Nat) → List (List Nat)
  | 0, _, _, w => w
  | n + 1, i, rc, w =>
    let t := w.headD []
    let t' :=
      if i % 8 = 0 then
        let r := ((t.drop 1) ++ t.take 1).map sbox
        (nth 0 r 0 ^^^ rc) :: r.drop 1
      else if i % 8 = 4 then t.map sbox else t
    aesExpand n (i + 1) (if i % 8 = 0 then xtime rc else rc) (List.zipWith (· ^^^ ·) t' (nth [] w 7) :: w)

/-- The fifteen round keys, sixteen bytes each. -/
def aesKeys (key : Bytes) : List (List Nat) :=
  let w := ((pieces 4 8 (padTo key 32)).map fun p => p.map (·.toNat)).reverse
  (pieces 4 15 (aesExpand 52 8 1 w).reverse).map (·.flatten)

def addKey (s k : List Nat) : List Nat := List.zipWith (· ^^^ ·) s k
/-- Bytes lie column by column; row r moves left by r places, or right. -/
def shiftRows (inv : Bool) (s : List Nat) : List Nat :=
  (if inv then [0, 13, 10, 7, 4, 1, 14, 11, 8, 5, 2, 15, 12, 9, 6, 3] else [0, 5, 10, 15, 4, 9, 14, 3, 8, 13, 2, 7, 12, 1, 6, 11]).map (nth 0 s)

/-- Each column by the circulant of 2, 3, 1, 1: a byte becomes itself, the sum of its column, and twice its sum with
the next byte. -/
def mixCols : List Nat → List Nat
  | a :: b :: c :: d :: r =>
    let t := a ^^^ b ^^^ c ^^^ d
    (a ^^^ t ^^^ xtime (a ^^^ b)) :: (b ^^^ t ^^^ xtime (b ^^^ c)) :: (c ^^^ t ^^^ xtime (c ^^^ d)) :: (d ^^^ t ^^^ xtime (d ^^^ a)) :: mixCols r
  | l => l
/-- Each column by the circulant of 5, 0, 4, 0: before `mixCols` it gives the circulant of 14, 11, 13, 9, the inverse. -/
def spreadCols : List Nat → List Nat
  | a :: b :: c :: d :: r =>
    let u := xtime (xtime (a ^^^ c))
    let v := xtime (xtime (b ^^^ d))
    (a ^^^ u) :: (b ^^^ v) :: (c ^^^ u) :: (d ^^^ v) :: spreadCols r
  | l => l

def encRounds : List (List Nat) → List Nat → List Nat
  | [], s => s
  | [k], s => addKey (shiftRows false (s.map sbox)) k
  | k :: r, s => encRounds r (addKey (mixCols (shiftRows false (s.map sbox))) k)

def decRounds : List (List Nat) → List Nat → List Nat
  | [], s => s
  | [k], s => addKey ((shiftRows true s).map invSbox) k
  | k :: r, s => decRounds r (mixCols (spreadCols (addKey ((shiftRows true s).map invSbox) k)))

def toNats (b : Bytes) : List Nat := b.map (·.toNat)
def ofNats (l : List Nat) : Bytes := l.map (BitVec.ofNat 8)

def aesEnc (keys : List (List Nat)) (b : Bytes) : Bytes :=
  match keys with
  | k :: r => ofNats (encRounds r (addKey (toNats b) k))
  | [] => b
def aesDec (keys : List (List Nat)) (b : Bytes) : Bytes :=
  match keys.reverse with
  | k :: r => ofNats (decRounds r (addKey (toNats b) k))
  | [] => b

/-! ### GCM with a 96-bit nonce -/

/-- Product in GF(2^128) with the bit order of GCM: bits of `x` left, `z` so far, `v`. -/
def ghashMul : Nat → Nat → Nat → Nat → Nat
  | 0, _, z, _ => z
  | n + 1, x, z, v =>
    ghashMul n x (z ^^^ (x / 2 ^ n % 2 * v)) (v / 2 ^^^ (v % 2 * (0xE1 * 2 ^ 120)))

def ghash (h : Nat) (b : Bytes) : Nat :=
  (pieces 16 (b.length / 16 + 1) b).foldl (fun y p => ghashMul 128 (y ^^^ beNat (padTo p 16)) 0 h) 0

def pad16 (b : Bytes) : Bytes := padTo b (16 * ceilDiv b.length 16)

def ctrStream (keys : List (List Nat)) (nonce : Bytes) : Nat → Nat → Bytes
  | 0, _ => []
  | n + 1, i => aesEnc keys (nonce ++ beBytes 4 i) ++ ctrStream keys nonce n (i + 1)

def gcmTag (keys : List (List Nat)) (nonce aad c : Bytes) : Bytes :=
  let h := beNat (aesEnc keys (zeros 16))
  let g := ghash h (pad16 aad ++ pad16 c ++ beBytes 8 (8 * aad.length) ++ beBytes 8 (8 * c.length))
  xorBytes (beBytes 16 g) (aesEnc keys (nonce ++ beBytes 4 1))

/-- Ciphertext and tag. -/
def gcmEnc (key nonce aad p : Bytes) : Bytes × Bytes :=
  let k := aesKeys key
  let c := xorBytes p (ctrStream k nonce (ceilDiv p.length 16) 2)
  (c, gcmTag k nonce aad c)

/-- Plaintext where the tag verifies. -/
def gcmDec (key nonce aad c tag : Bytes) : Option Bytes :=
  let k := aesKeys key
  if gcmTag k nonce aad c = tag then some (xorBytes c (ctrStream k nonce (ceilDiv c.length 16) 2)) else none

/-! ### XTS -/

/-- One 16-byte data unit under a 64-byte key (Key1, Key2), the tweak least significant byte first (R453). -/
def xtsUnit (dec : Bool) (key : Bytes) (tweak : Nat) (b : Bytes) : Bytes :=
  let t := aesEnc (aesKeys (key.drop 32)) (toBytes 16 tweak)
  let k := aesKeys (key.take 32)
  xorBytes (if dec then aesDec k (xorBytes b t) else aesEnc k (xorBytes b t)) t

/-- Every 16-byte unit of a buffer, with the tweak of each unit index. -/
def xtsBuffer (dec : Bool) (key : Bytes) (tweak : Nat → Nat) (b : Bytes) : Bytes :=
  ((pieces 16 (b.length / 16 + 1) b).zipIdx.map fun p => xtsUnit dec key (tweak p.2) (padTo p.1 16)).flatten

/-! ### Key unwrap and wrap (RFC 3394), for 32-byte keys -/

def unwrapSteps (keys : List (List Nat)) : Nat → Nat × List Bytes → Nat × List Bytes
  | 0, s => s
  | t + 1, (a, r) =>
    -- step number t + 1, on register t mod 4
    let b := aesDec keys (beBytes 8 (a ^^^ (t + 1)) ++ nth [] r (t % 4))
    unwrapSteps keys t (beNat (b.take 8), r.set (t % 4) (b.drop 8))

def keyUnwrap (kek w : Bytes) : Option Bytes :=
  let x := unwrapSteps (aesKeys kek) 24 (beNat (w.take 8), pieces 8 4 (w.drop 8))
  if w.length = 40 && x.1 = 0xA6A6A6A6A6A6A6A6 then some x.2.flatten else none

/-! ### P-384 -/

def pP : Nat := 2 ^ 384 - 2 ^ 128 - 2 ^ 96 + 2 ^ 32 - 1
def pN : Nat := join256
  [0xFFFFFFFFFFFFFFFFFFFFFFFFFFFFFFFF,
   0xFFFFFFFFFFFFFFFFC7634D81F4372DDF581A0DB248B0A77AECEC196ACCC52973]
def pGx : Nat := join256
  [0xAA87CA22BE8B05378EB1C71EF320AD74,
   0x6E1D3B628BA79B9859F741E082542A385502F25DBF55296C3A545E3872760AB7]
def pGy : Nat := join256
  [0x3617DE4A96262C6F5D9E98BF9292DC29,
   0xF8F41DBD289A147CE9DA3113B5F0B8C00A60B1CE1D7E819D7A431D7C90EA0E5F]
def pB : Nat := join256
  [0xB3312FA7E23EE7E4988E056BE3F82D19,
   0x181D9C6EFE8141120314088F5013875AC656398D8A2ED19D2A85C8EDD3EC2AEF]

def powMod (m b : Nat) : Nat → Nat → Nat
  | 0, _ => 1
  | n + 1, e => let r := powMod m b n (e / 2); let q := r * r % m; if e % 2 = 1 then q * b % m else q
def invMod (m a : Nat) : Nat := powMod m a 384 (m - 2)
def subMod (a b : Nat) : Nat := (a + pP - b % pP) % pP

/-- A point in Jacobian coordinates; none is the point at infinity. -/
abbrev Point := Option (Nat × Nat × Nat)

def dbl : Point → Point
  | none => none
  | some (x, y, z) =>
    if y = 0 then none
    else
      let d := z * z % pP
      let g := y * y % pP
      let b := x * g % pP
      let a := 3 * (subMod x d * ((x + d) % pP)) % pP
      let x' := subMod (a * a) (8 * b)
      let z' := subMod (subMod ((y + z) * (y + z)) g) d
      some (x', subMod (a * subMod (4 * b) x') (8 * g * g), z')

def addPt : Point → Point → Point
  | none, q => q
  | p, none => p
  | some (x1, y1, z1), some (x2, y2, z2) =>
    let a := z1 * z1 % pP
    let b := z2 * z2 % pP
    let u1 := x1 * b % pP
    let u2 := x2 * a % pP
    let s1 := y1 * z2 * b % pP
    let s2 := y2 * z1 * a % pP
    if u1 = u2 then (if s1 = s2 then dbl (some (x1, y1, z1)) else none)
    else
      let h := subMod u2 u1
      let r := subMod s2 s1
      let h2 := h * h % pP
      let h3 := h * h2 % pP
      let v := u1 * h2 % pP
      let x3 := subMod (subMod (r * r) h3) (2 * v)
      some (x3, subMod (r * subMod v x3) (s1 * h3), h * z1 * z2 % pP)

/-- Scalar multiple over the low `n` bits of `k`. -/
def mulPt (p : Point) : Nat → Nat → Point
  | 0, _ => none
  | n + 1, k => let q := dbl (mulPt p n (k / 2)); if k % 2 = 1 then addPt q p else q

def affine : Point → Nat × Nat
  | none => (0, 0)
  | some (x, y, z) => let i := invMod pP z; let j := i * i % pP; (x * j % pP, y * j * i % pP)

def onCurve (x y : Nat) : Bool := x < pP && y < pP && y * y % pP = (x * x * x + (pP - 3) * x + pB) % pP

def base : Point := some (pGx, pGy, 1)

/-- Public key of a private key, reduced into the group's range. -/
def publicKey (d : Nat) : Nat × Nat := affine (mulPt base 384 (d % (pN - 1) + 1))

def ecdsaVerify (qx qy : Nat) (digest : Bytes) (r s : Nat) : Bool :=
  0 < r && r < pN && 0 < s && s < pN && onCurve qx qy &&
  (let w := invMod pN s
   let p := addPt (mulPt base 384 (beNat digest * w % pN)) (mulPt (some (qx, qy, 1)) 384 (r * w % pN))
   match p with
   | none => false
   | q => (affine q).1 % pN = r)

/-- A signature with private key `d` and a random per-signature number. -/
def ecdsaSign (d : Nat) (digest : Bytes) (k : Nat) : Nat × Nat :=
  let d := d % (pN - 1) + 1
  let k := k % (pN - 1) + 1
  let r := (affine (mulPt base 384 k)).1 % pN
  (r, invMod pN k * (beNat digest + r * d) % pN)

/-- Shared secret: 48 bytes of the x coordinate, most significant first (SEC 1). -/
def ecdh (d qx qy : Nat) : Bytes := beBytes 48 (affine (mulPt (some (qx, qy, 1)) 384 (d % (pN - 1) + 1))).1

end Sys2Proof.Crypto
end

