-- ==== Sys2Proof/Machine/Host.lean ====
section
/-! DEFINITION. Host.lean: the host endpoint: queue pairs, doorbells, completions, MSI-X, register writes, and
the taking and checking of a command (ch. Host interface R402-R425). -/

namespace Sys2Proof.Machine

/-! ### Queue pairs (R410, R411) -/

/-- The host link carries requests: supply present, PERST# deasserted, and the link has trained (R407, R500). -/
def State.hostReach (s : State) : Bool := s.power.supplyValid && !s.power.perst && s.host.linkWidth ≠ 0

/-- A queue pair takes its bases and sizes and enters UNBOUND (R410). -/
def Qp.enabled (q : Qp) : Qp :=
  { q with en := true, enHeld := false, sqHead := 0, sqTail := 0, cqTail := 0, cqHead := 0, phase := true
           stopped := false, fetchFails := 0, st := .unbound, principal := 0, keys := none, bound := none
           closeTaken := false, msg := false, cmds := [] }

/-- SQ_TAIL (R411). -/
def Qp.sqTailWrite (q : Qp) (v : Nat) : Qp :=
  if q.en && v % 4096 ≤ q.sqSize then { q with sqTail := v % 4096 } else { q with qerr := true }

/-! ### Completions (R415, R419, R453) -/

/-- The tweak of a data unit under session keys (R453): unit or completion index, SEQ, queue pair, direction. -/
def sessTweak (index seq qp dir : Nat) : Nat := index + seq * 2 ^ 64 + qp * 2 ^ 96 + dir * 2 ^ 112

/-- The completion queue is full. -/
def Qp.cqFull (q : Qp) : Bool := (q.cqTail + 1) % (q.cqSize + 1) = q.cqHead

/-- The 32 bytes of a completion entry. -/
def Qp.entryBytes (q : Qp) (n : Nat) (c : Cmd) (p : Comp) : Bytes :=
  let r := toBytes 8 p.r0 ++ toBytes 8 p.r1
  let r := match c.keyed, q.keys with
    | true, some k => Crypto.xtsUnit false k.completion (sessTweak c.posted c.seq n 3) r
    | _, _ => r
  toBytes 2 c.cid ++ toBytes 2 p.status ++ toBytes 2 q.sqHead ++ toBytes 2 (b2n q.phase * 2 ^ 15) ++ r ++
    toBytes 4 (b2n p.more + 2 * b2n p.cancelled + 4 * b2n p.trunc) ++ zeros 4

/-- Writes a completion entry and moves the module's tail; a final completion releases the command. -/
def State.writeEntry (s : State) (n : Nat) (c : Cmd) (p : Comp) : State :=
  let q := s.qp n
  let t := if q.cqTail = q.cqSize then 0 else q.cqTail + 1
  let cmds :=
    if p.more then q.cmds.map fun x => if x.id = c.id then { x with posted := x.posted + 1, waiting := none } else x
    else q.cmds.filter fun x => x.id ≠ c.id
  (s.send (.dmaWrite (q.cqBase + 32 * q.cqTail) (q.entryBytes n c p))).setQp n
    { q with cqTail := t, phase := if t = 0 then !q.phase else q.phase, msg := q.msg || q.ien, cmds := cmds }

/-- A later event of a command updates its waiting completion (R415). -/
def Comp.merge (w p : Comp) : Comp := { p with trunc := w.trunc || p.trunc, cancelled := w.cancelled || p.cancelled }

/-- The queue pair after its session has ended (R425). -/
def Qp.unbind (q : Qp) : Qp :=
  { q with st := .unbound, principal := 0, keys := none, expected := 0, bound := none, closeTaken := false }

/-- The command is the CLOSE_SESSION that closes the session of its queue pair: the last one taken (R414). -/
def Qp.closes (q : Qp) (c : Cmd) : Bool := q.closeTaken && c.opcode = 0x04 && (q.cmds.getLast?.map (·.id)) = some c.id

/-- CLOSE_SESSION posts its completion once it is the last command of the session (R425). -/
def State.settleClose (s : State) (n : Nat) : State :=
  let q := s.qp n
  match q.cmds with
  | [c] =>
    match c.waiting with
    | some w =>
      if q.closes c && !q.cqFull then
        let s := s.writeEntry n c w
        s.setQp n (s.qp n).unbind
      else s
    | none => s
  | [] => if q.closeTaken then s.setQp n q.unbind else s
  | _ => s

/-- An event of a command: its completion is posted, or waits while the completion queue is full (R415). A queue
pair that is CLOSING or DISABLED posts none (R416). -/
def State.post (s : State) (r : CmdRef) (p : Comp) : State :=
  let q := s.qp r.1
  match q.cmds.find? fun c => c.id = r.2 with
  | none => s
  | some c =>
    if q.st = .closing || q.st = .disabled then
      if p.more then s else s.setQp r.1 { q with cmds := q.cmds.filter fun x => x.id ≠ r.2 }
    else
      let last := q.closes c && c.waiting.isNone
      match c.waiting with
      | some w => s.setQp r.1 { q with cmds := q.cmds.map fun x => if x.id = r.2 then { x with waiting := some (w.merge p) } else x }
      | none =>
        if q.cqFull || last then
          (s.setQp r.1 { q with cmds := q.cmds.map fun x => if x.id = r.2 then { x with waiting := some p } else x }).settleClose r.1
        else (s.writeEntry r.1 c p).settleClose r.1

/-- A completion that ends a command with a status and results. -/
def done (status : Nat) (r0 : Nat := 0) (r1 : Nat := 0) : Comp := ⟨status, r0, r1, false, false, false⟩

/-- Ends a command. -/
def State.finish (s : State) (r : CmdRef) (status : Nat) (r0 : Nat := 0) (r1 : Nat := 0) : State :=
  s.post r (done status r0 r1)

/-- Posts what waits for queue space, in the order of taking. -/
def State.flushWaiting (s : State) (n : Nat) : State :=
  ((s.qp n).cmds.foldl (fun s c =>
    match c.waiting with
    | some w => if (s.qp n).cqFull || (s.qp n).closes c then s else s.writeEntry n c w
    | none => s) s).settleClose n

/-- CQ_HEAD (R411). -/
def State.cqHeadWrite (s : State) (n v : Nat) : State :=
  let q := s.qp n
  if q.en && v % 4096 ≤ q.cqSize then (s.setQp n { q with cqHead := v % 4096 }).flushWaiting n
  else s.setQp n { q with qerr := true }

def execSqTail (qp value : Nat) (s : State) : Res := guarded (s.hostReach && qp < 1024) s (s.setQp qp ((s.qp qp).sqTailWrite value))
def execCqHead (qp value : Nat) (s : State) : Res := guarded (s.hostReach && qp < 1024) s (s.cqHeadWrite qp value)

/-! ### QCFG (R10, R410, R416) -/

/-- A value with the bits of a mask taken from a write. -/
def blend (old v m : Nat) : Nat := (old &&& (2 ^ 64 - 1 - m)) ||| (v &&& m)

/-- QCFG as it reads; EN reads as 1 while a write of 1 is held. -/
def Qp.cfgWord (q : Qp) : Nat :=
  q.share * 2 ^ 56 + q.vector * 2 ^ 32 + q.cqSize * 2 ^ 16 + q.sqSize * 2 ^ 4 + 2 * b2n q.ien + b2n (q.en || q.enHeld)

/-- The fields of QCFG other than EN take a write; those that EN locks stay while it is 1 or held. -/
def Qp.writeCfg (q : Qp) (w : Nat) : Qp :=
  let lock := q.en || q.enHeld
  { q with
    share := if bits w 56 8 = 0 || q.enHeld then q.share else bits w 56 8
    vector := if lock then q.vector else bits w 32 11
    cqSize := if lock || bits w 16 12 = 0 then q.cqSize else bits w 16 12
    sqSize := if lock || bits w 4 12 = 0 then q.sqSize else bits w 4 12
    ien := if q.enHeld then q.ien else bit w 1 }

/-- A write of EN = 1: DISABLED goes to UNBOUND; CLOSING holds the write. -/
def Qp.writeEn (q : Qp) : Qp :=
  if q.en then q
  else if q.st = .closing then { q with enHeld := true }
  else q.enabled

/-- QP_ENABLE (R410): a write to QCFG with EN = 1. -/
def execQpEnable (qp value : Nat) (s : State) : Res :=
  guarded (s.hostReach && qp < 1024 && bit value 0) s (s.setQp qp ((s.qp qp).writeCfg value).writeEn)

/-- A closing queue pair reaches DISABLED, and takes a held EN = 1 (R416). -/
def Qp.closed (q : Qp) : Qp :=
  let q' := { q with st := .disabled, en := false, keys := none, principal := 0, bound := none, cmds := [], msg := false, closeTaken := false }
  if q.enHeld then q'.enabled else q'

/-! ### MSI-X (R412) -/

/-- A dword of the MSI-X table: vector control resets to masked, as the base specification gives (PRESUMED, log 5). -/
def State.msixWord (s : State) (k : Nat) : BitVec 32 := Table.get (if k % 4 = 3 then 1 else 0) s.host.msix k

/-- MSI-X is enabled, and neither the function nor the vector is masked. -/
def State.msixOpen (s : State) (v : Nat) : Bool := s.host.msixControl = 2 && (s.msixWord (4 * v + 3)).toNat % 2 = 0

/-- Sends the message of a vector, or sets its pending bit while it cannot be sent (log 5). -/
def State.message (s : State) (v : Nat) : State :=
  if !s.msixOpen v then
    { s with host := { s.host with pba := v :: s.host.pba.filter (· ≠ v) } }
  else
    s.send (.msix ((s.msixWord (4 * v)).toNat + 2 ^ 32 * (s.msixWord (4 * v + 1)).toNat) (s.msixWord (4 * v + 2)).toNat)

/-- A write to a dword of the MSI-X table; unmasking a pending vector sends it. -/
def State.msixWrite (s : State) (k w : Nat) : State :=
  let w' := if k % 4 = 3 then w % 2 else if k % 4 = 0 then w / 4 * 4 else w
  let s := { s with host := { s.host with msix := Table.set (if k % 4 = 3 then 1 else 0) s.host.msix k (BitVec.ofNat 32 w') } }
  if k % 4 = 3 && w' = 0 && s.host.pba.contains (k / 4) then
    { s with host := { s.host with pba := s.host.pba.filter (· ≠ k / 4) } }.message (k / 4)
  else s

/-- A write to Message Control: the pending vectors that may now be sent are sent. -/
def State.msixControlWrite (s : State) (w : Nat) : State :=
  let s := { s with host := { s.host with msixControl := w % 4 } }
  let due := (List.range 2048).filter fun v => s.host.pba.contains v && s.msixOpen v
  due.foldl State.message { s with host := { s.host with pba := s.host.pba.filter fun v => !due.contains v } }

/-- MSIX_MESSAGE (R412): one message covers every completion posted, or event set, since the previous one. -/
def execMsixMessage (source : MsixSource) (s : State) : Res :=
  match source with
  | .queuePair n =>
    guarded (s.hostReach && (s.qp n).msg) s ((s.setQp n { s.qp n with msg := false }).message (s.qp n).vector)
  | .moduleEvent =>
    guarded (s.hostReach && s.host.evtMsg && s.host.evtIen) s ({ s with host := { s.host with evtMsg := false } }.message s.host.evtVector)

/-! ### Requests that complete with Unsupported Request (R405) -/

/-- BAR0_UNSUPPORTED_REQUEST: a request outside BAR0, or of another size or alignment than 4 or 8 bytes, is logged
in Advanced Error Reporting; a read, and a request outside BAR0, completes with Unsupported Request. -/
def execBar0UnsupportedRequest (write : Bool) (addr size : Nat) (s : State) : Res :=
  let inside := s.host.bar0 ≤ addr && addr + size ≤ s.host.bar0 + 0x200_0000
  let fits := (size = 4 || size = 8) && addr % size = 0
  let t := { s with host := { s.host with aer := s.host.aer + 1 } }
  guarded (s.hostReach && !(inside && fits)) s (if write && inside then t else t.send .unsupportedRequest)

/-! ### Register writes (R8-R10, R405, R409) -/

/-- Writes of one aligned 64-bit register of BAR0: value and mask of the bytes written. -/
def State.writeBar0 (s : State) (o v m : Nat) : State :=
  let w1c := v &&& m
  if o = 0x1000 then
    { s with host := { s.host with
        evtVector := if bit m 16 then bits v 16 11 else s.host.evtVector
        evtIen := if bit m 0 then bit v 0 else s.host.evtIen } }
  else if o = 0x1010 then
    { s with host := { s.host with evt := s.host.evt &&& ~~~BitVec.ofNat 6 w1c } }
  else if 0x8000 ≤ o && o < 0x1_0000 then
    let n := (o - 0x8000) / 32
    let q := s.qp n
    let lock := q.en || q.enHeld
    match (o - 0x8000) % 32 / 8 with
    | 0 => s.setQp n { q with sqBase := if lock then q.sqBase else blend q.sqBase v m / 4096 * 4096 }
    | 1 => s.setQp n { q with cqBase := if lock then q.cqBase else blend q.cqBase v m / 4096 * 4096 }
    | 2 => s.setQp n (q.writeCfg (blend q.cfgWord v m))
    | _ => s.setQp n { q with qerr := q.qerr && !bit w1c 3 }
  else if 0x1_0000 ≤ o && o < 0x1_8000 then
    let k := (o - 0x1_0000) / 4
    let s := if bit m 0 then s.msixWrite k (bits v 0 32) else s
    if bit m 32 then s.msixWrite (k + 1) (bits v 32 32) else s
  else if o = 0x20_0000 then
    { s with host := { s.host with unrecovered := s.host.unrecovered && !bit w1c 0 } }
  else if 0x20_0100 ≤ o && o < 0x20_0100 + 800 then
    let i := (o - 0x20_0100) / 8
    let d := s.die i
    s.setDie i { d with hostCorrOvf := d.hostCorrOvf && !bit w1c 32, hostUnrecOvf := d.hostUnrecOvf && !bit w1c 33 }
  else s

/-- Writes of one aligned 64-bit register of the package address space, by the module's control firmware. -/
def State.writePackage (s : State) (a v m : Nat) : State :=
  let w1c := v &&& m
  let die := (a - 0x10_0000_0000) / 0x4000_0000
  let o := (a - 0x10_0000_0000) % 0x4000_0000
  let cl := 16 * die + o / 0x80_0000
  let w := o % 0x80_0000
  if a < 0x10_0000_0000 || s.dev.part.cds ≤ die then s
  else if o = 0x1900_1000 then
    let d := s.die die
    s.setDie die { d with descOvf := d.descOvf.zipIdx.map fun p => p.1 && !bit w1c p.2 }
  else if o = 0x1900_0000 then
    let d := s.die die
    s.setDie die { d with
      ueFlags := d.ueFlags &&& (31 - w1c % 32)
      skipOvf := d.skipOvf && !bit w1c 8
      pubOvf := d.pubOvf && !bit w1c 9 }
  else if 0x800_0000 ≤ o then s
  else
    let c := s.cluster cl
    if w = 0x70_0800 then
      s.setCluster cl { c with rm := if bit m 8 then bits v 8 2 else c.rm, flags := c.flags &&& (31 - w1c % 32) }
    else if w = 0x70_1000 then
      s.setCluster cl { c with entryReg := if bit m 32 then bits v 32 4 else c.entryReg }
    else if w = 0x70_1008 then s.setCluster cl { c with semOvf := c.semOvf && !bit w1c 3 }
    else s

/-- REGISTER_WRITE (R8, R405): a naturally aligned write of 4 or 8 bytes to fields that have no row of their
own; a 4-byte write touches its half only. -/
def execRegisterWrite (space : RegSpace) (offset width value : Nat) (s : State) : Res :=
  let o := offset / 8 * 8
  let sh := 8 * (offset % 8)
  let v := if width = 8 then value % 2 ^ 64 else value % 2 ^ 32 * 2 ^ sh
  let m := if width = 8 then 2 ^ 64 - 1 else (2 ^ 32 - 1) * 2 ^ sh
  let ok := (width = 8 && offset % 8 = 0) || (width = 4 && offset % 4 = 0)
  match space with
  | .bar0 => guarded (s.hostReach && ok && offset < 0x200_0000) s (s.writeBar0 o v m)
  | .package => guarded (s.diesRun && ok) s (s.writePackage o v m)

/-! ### The commands (R417, R418, R422) -/

/-- The opcodes of Table Commands. -/
def opcodes : List Nat :=
  [0x01, 0x02, 0x03, 0x04, 0x05, 0x08, 0x10, 0x11, 0x18, 0x19, 0x1A, 0x20, 0x21, 0x22, 0x23, 0x24, 0x30, 0x31,
   0x38, 0x39, 0x3A, 0x3B, 0x40, 0x41, 0x50, 0x51, 0x52, 0x60, 0x61, 0x70, 0x71]

/-- Any command other than IDENTIFY, OPEN_SESSION and AUTH (R418). -/
def keyedOp (op : Nat) : Bool := !(op = 1 || op = 2 || op = 3)

/-- Life-cycle states in which a principal kind may issue a command (Table Commands): kinds 1 V, 2 MO, 3 OP, 4 CU;
states coded as GSTS.LIFECYCLE; none where the kind does not appear. `kind` is TELEMETRY_READ's KIND. -/
def statesFor (op pk kind : Nat) : List Nat :=
  let all := [0, 1, 2, 3]
  if op = 0x04 || op = 0x08 then all
  else if op = 0x10 then (if pk = 2 then [2] else if pk = 3 then [0, 1] else [])
  else if op = 0x11 then (if pk = 2 || pk = 3 then [0, 1, 2] else [])
  else if op ∈ [0x05, 0x18, 0x19, 0x1A, 0x50] then (if pk = 3 then all else [])
  else if op ∈ [0x51, 0x60, 0x61, 0x70] then (if pk = 1 || pk = 3 then all else [])
  else if op = 0x71 then (if pk = 3 then [3] else [])
  else if op = 0x52 then
    (if kind = 0 || kind = 2 then (if pk = 3 then all else []) else if kind = 1 then (if pk = 4 then all else []) else all)
  else if pk = 4 then [2] else []

/-- The PARAMS fields of a command (first bit, width), and whether it uses its input and its result buffer
(Table Command parameters). -/
structure Shape where
  fields : List (Nat × Nat)
  input : Bool
  result : Bool

def shapeOf (op : Nat) (p : Bytes) : Shape :=
  let b : Nat → Nat := fun k => 8 * k
  match op with
  | 0x01 => ⟨[], false, true⟩
  | 0x02 => ⟨[(0, 32), (b 0x10, 256)], false, true⟩
  | 0x03 => ⟨[(0, 384)], false, false⟩
  | 0x05 => ⟨[(0, 8)], false, false⟩
  | 0x08 => ⟨[(0, 384)], false, true⟩
  | 0x10 => ⟨[(0, 4), (b 1, 1), (b 2, 4), (b 4, 32), (b 8, 64), (b 0x10, 64), (b 0x18, 32)], fieldAt p 1 1 % 2 = 0, false⟩
  | 0x11 => ⟨[(0, 4)], false, false⟩
  | 0x18 => ⟨[], true, false⟩
  | 0x19 => ⟨[(0, 4)], false, false⟩
  | 0x1A => ⟨[(0, 4)], false, false⟩
  | 0x20 => ⟨[(0, 4), (b 1, 1), (b 4, 32), (b 8, 64), (b 0x10, 32)], false, false⟩
  | 0x21 => ⟨[(0, 32)], false, false⟩
  | 0x22 => ⟨[(0, 32), (b 4, 16)], false, false⟩
  | 0x23 => ⟨[(0, 32), (b 4, 4), (b 5, 1)], false, false⟩
  | 0x24 => ⟨[(0, 32), (b 4, 32)], false, true⟩
  | 0x30 => ⟨[(0, 32), (b 4, 4), (b 8, 32), (b 0xC, 32), (b 0x10, 16), (b 0x18, 64)], true, true⟩
  | 0x31 => ⟨[(0, 32)], false, false⟩
  | 0x38 => ⟨[(0, 32), (b 4, 4), (b 5, 8), (b 6, 8), (b 7, 2), (b 8, 16), (b 0xA, 16), (b 0x10, 64), (b 0x18, 5),
      (b 0x1C, 32), (b 0x20, 64), (b 0x28, 32)], fieldAt p 7 1 % 4 ≠ 1, false⟩
  | 0x39 => ⟨[(0, 32), (b 4, 32)], true, false⟩
  | 0x3A => ⟨[(0, 32), (b 4, 1), (b 5, 4), (b 8, 32), (b 0x10, 64)], false, false⟩
  | 0x3B => ⟨[(0, 32)], false, false⟩
  | 0x40 => ⟨[(0, 32), (b 8, 64), (b 0x10, 16), (b 0x12, 16), (b 0x14, 8), (b 0x18, 32), (b 0x1C, 32)], true, false⟩
  | 0x41 => ⟨[(0, 32)], false, false⟩
  | 0x50 => ⟨[(0, 4)], false, true⟩
  | 0x51 => ⟨[(0, 7)], false, true⟩
  | 0x52 => ⟨[(0, 8), (b 4, 32), (b 8, 4), (b 9, 8)], false, true⟩
  | 0x60 => ⟨[(0, 1)], true, false⟩
  | 0x70 => ⟨[(0, 3)], false, false⟩
  | 0x71 => ⟨[], true, false⟩
  | _ => ⟨[], false, false⟩

/-- The buffers marked S in Table Command parameters: input and result. -/
def secretIn (op : Nat) : Bool := op ∈ [0x30, 0x38, 0x39, 0x40]
def secretOut (op pk kind : Nat) : Bool := op = 0x24 || op = 0x30 || (op = 0x52 && (kind = 1 || (kind = 3 && pk = 4)))

/-- Bits outside the fields of a command's PARAMS are 0 (R9). -/
def onlyFields (p : Bytes) (l : List (Nat × Nat)) : Bool := (l.foldl (fun n f => setBits n f.1 f.2 0) (leNat p)) = 0

/-- A command that has been taken, with PARAMS and input buffer as they read after decryption. -/
structure Call where
  qp : Nat
  id : Nat
  cid : Nat
  seq : Nat
  op : Nat
  principal : Nat
  params : Bytes
  data : Bytes
  rptr : Nat
  rlen : Nat

def Call.ref (k : Call) : CmdRef := (k.qp, k.id)
/-- A field of PARAMS. -/
def Call.arg (k : Call) (off w : Nat) : Nat := fieldAt k.params off w

/-- Kind of a principal, 0 where it is not enrolled. -/
def State.kindOf (s : State) (p : Nat) : Nat := ((Table.find s.store.principals p).map (·.kind)).getD 0

/-- Parameters out of range and buffers too short, as far as the command's format tells (R421 step 8, R423). -/
def rangeBad (part : Part) (op : Nat) (p : Bytes) (dlen rlen : Nat) : Bool :=
  let f : Nat → Nat → Nat := fieldAt p
  match op with
  | 0x01 => rlen < 512
  | 0x02 => rlen < 32
  | 0x05 => f 0 1 ≠ 0
  | 0x10 => f 1 1 % 2 = 0 && dlen < 64
  | 0x18 => dlen < 64
  | 0x24 => rlen < 32 * f 4 4
  | 0x30 => dlen ≠ 4 * f 8 4 || rlen < 4 * f 0xC 4 || f 8 4 = 0 || 131072 < f 8 4 || 131072 < f 0xC 4 || f 0x10 2 = 0
  | 0x38 => (f 7 1 % 4 ≠ 1 && dlen < 64) || 64 < f 5 1 || (24 < f 6 1 && f 6 1 ≠ 0xFF) || (f 8 2 ≠ 0 && f 8 2 < 16) ||
      bit (f 0xA 2) (f 4 1)
  | 0x39 => f 4 4 < 16 || 65536 < f 4 4
  | 0x40 => dlen < 40 || f 8 8 = 0 || f 0x10 2 < 2 || 8192 < f 0x10 2 || f 0x10 2 ≤ f 0x12 2 || f 0x14 1 = 0 || 4 < f 0x14 1 ||
      f 0x18 4 < 10 || 100000 < f 0x18 4 || f 0x1C 4 < 100 || 10000000 < f 0x1C 4 || f 0x1C 4 < 2 * f 0x18 4
  | 0x50 => rlen < 128
  | 0x51 => rlen < 576 || !part.hasDie (f 0 1)
  | 0x52 => 4 ≤ f 0 1 || rlen < [64, 64, 32, 8].getD (f 0 1) 0
  | 0x60 => dlen < 160
  | 0x70 => 5 ≤ f 0 1
  | 0x71 => dlen ≠ 1024
  | _ => false

/-- Steps 3 to 5 of R421 against the queue pair's session: a status, 0 when they pass. -/
def Qp.admits (q : Qp) (op seq : Nat) (plain : Option Bytes) : Nat :=
  let three := match q.st with
    | .unbound => op = 1 || op = 2
    | .opening => op = 1 || op = 3
    | .active => op ≠ 2 && op ≠ 3
    | .expired => op ≠ 2 && op ≠ 3
    | _ => false
  if !three then 0x0601
  else if q.st = .expired && op ≠ 1 && op ≠ 4 then 0x0602
  else if keyedOp op && (seq ≠ q.expected || plain.isNone) then 0x0603 else 0

/-- Steps 6 to 9 of R421. -/
def State.permits (s : State) (q : Qp) (op : Nat) (e p : Bytes) (dlen rlen : Nat) : Nat :=
  let pk := s.kindOf q.principal
  let kind := fieldAt p 0 1
  let sh := shapeOf op p
  if keyedOp op && statesFor op pk kind = [] then 0x0605
  else if keyedOp op && !(statesFor op pk kind).contains s.host.lifecycle then 0x0604
  else if bits (fieldAt e 1 1) 1 7 ≠ 0 || fieldAt e 2 2 ≠ 0 || fieldAt e 0xA 2 ≠ 0 || !allZero (slice e 0x24 12) ||
      !onlyFields p sh.fields || (!keyedOp op && (fieldAt e 4 4 ≠ 0 || !allZero (slice e 0x70 16))) ||
      (!sh.input && (fieldAt e 0x10 8 ≠ 0 || dlen ≠ 0)) || (!sh.result && (fieldAt e 0x18 8 ≠ 0 || rlen ≠ 0)) ||
      rangeBad s.dev.part op p dlen rlen then 0x0104
  else if (sh.input && fieldAt e 0x10 8 % 64 ≠ 0) || (sh.result && fieldAt e 0x18 8 % 64 ≠ 0) then 0x0101
  else 0

/-- PARAMS of an entry in the clear: decrypted and authenticated for a keyed command (R418, R453). -/
def Qp.plainParams (q : Qp) (e : Bytes) : Option Bytes :=
  if !keyedOp (fieldAt e 0 1) then some (slice e 0x30 64)
  else
    match q.keys with
    | some k => Crypto.gcmDec k.command (slice e 4 4 ++ zeros 8) (slice e 0 8) (slice e 0x30 64) (slice e 0x70 16)
    | none => none

/-- The input buffer in the clear. -/
def Qp.plainData (q : Qp) (n : Nat) (e d : Bytes) : Bytes :=
  let len := fieldAt e 0xC 4
  if secretIn (fieldAt e 0 1) then
    match q.keys with
    | some k => (Crypto.xtsBuffer true k.data (fun u => sessTweak u (fieldAt e 4 4) n 1) (padTo d (16 * ceilDiv len 16))).take len
    | none => padTo d len
  else padTo d len

/-- Every earlier command of the queue pair has posted its final completion (R414). -/
def Qp.first (q : Qp) (id : Nat) : Bool := q.cmds.all fun c => id ≤ c.id

/-- Puts a taken command aside until it may start; `lost` says that its input buffer could not be read. -/
def State.hold (s : State) (k : Call) (fence : Bool) (lost : Bool := false) : State :=
  { s with host := { s.host with held := s.host.held ++ [⟨k.qp, k.id, fence, k.op, k.params, k.data, lost⟩] } }

/-- A taken command runs: its own checks and its effect. -/
abbrev Start := Call → State → State

/-- Takes the next command of a queue pair and checks it (R414, R421). Where the read of its input buffer failed, it ends
with PARITY_UNRECOVERED when it would start. -/
def State.take (s : State) (n : Nat) (e d : Bytes) (lost : Bool) (start : Start) : State :=
  let q := s.qp n
  let op := fieldAt e 0 1
  let seq := fieldAt e 4 4
  let id := s.host.nextId
  let cmd : Cmd := { id := id, cid := fieldAt e 8 2, seq := seq, opcode := op, rptr := fieldAt e 0x18 8, rlen := fieldAt e 0x20 4
                     keyed := keyedOp op && q.keys.isSome, posted := 0, waiting := none }
  let q' := { q with sqHead := (q.sqHead + 1) % (q.sqSize + 1), fetchFails := 0, cmds := q.cmds ++ [cmd] }
  let s := { s with host := { s.host with nextId := id + 1, issuers := Table.set 0 s.host.issuers id q.principal } }.setQp n q'
  let plain := q.plainParams e
  let dlen := fieldAt e 0xC 4
  if !opcodes.contains op then s.finish (n, id) 0x0803
  else if !s.host.ready && op ≠ 1 then s.finish (n, id) 0x0801
  else
    let a := q.admits op seq plain
    if a ≠ 0 then s.finish (n, id) a
    else
      let p := plain.getD []
      let s := if keyedOp op then
          s.setQp n { s.qp n with expected := (q.expected + 1) % 2 ^ 32, st := if seq = 0xFFFFFFFF then .expired else q.st }
        else s
      let b := s.permits q op e p dlen cmd.rlen
      if b ≠ 0 then s.finish (n, id) b
      else
        let k : Call := ⟨n, id, cmd.cid, seq, op, q.principal, p, q.plainData n e d, cmd.rptr, cmd.rlen⟩
        let s := if op = 4 then s.setQp n { s.qp n with closeTaken := true } else s
        if bit (fieldAt e 1 1) 0 && !(s.qp n).first id then s.hold k true lost
        else if lost then s.finish k.ref 0x0702 else start k s

/-- The queue pair can take an entry now (R414, R421); intake pauses while the firmware switches (R433). -/
def State.canTake (s : State) (n : Nat) : Bool :=
  let q := s.qp n
  s.hostReach && n < 1024 && q.en && q.st != .closing && q.st != .disabled && q.sqHead ≠ q.sqTail && !q.stopped &&
    !q.closeTaken && !s.fw.paused

/-- The taken command that an entry names among those put aside. -/
def State.heldFor (s : State) (n : Nat) (e : Bytes) : Option (Held × Cmd) :=
  s.host.held.findSome? fun h =>
    if h.qp = n && h.opcode = fieldAt e 0 1 then
      ((s.qp n).cmds.find? fun c => c.id = h.id && c.cid = fieldAt e 8 2 && c.seq = fieldAt e 4 4).map fun c => (h, c)
    else none

/-- A host command of one row: the module takes it, or starts it where it had been put aside. A row whose opcode is
not the entry's changes nothing; a reserved opcode is taken by any row (R421 step 1). -/
def State.command (s : State) (c : HostCmd) (row : Nat) (start : Start) : Res :=
  let op := fieldAt c.entry 0 1
  match s.heldFor c.qp c.entry with
  | some (h, cmd) =>
    guarded (op = row && s.hostReach && (!h.fence || (s.qp c.qp).first h.id)) s
      (let s' := { s with host := { s.host with held := s.host.held.filter fun x => !(x.qp = c.qp && x.id = h.id) } }
       if h.lost then s'.finish (c.qp, h.id) 0x0702
       else start ⟨c.qp, h.id, cmd.cid, cmd.seq, op, (s.qp c.qp).principal, h.params, h.data, cmd.rptr, cmd.rlen⟩ s')
  | none =>
    guarded (s.canTake c.qp && (op = row || !opcodes.contains op)) s (s.take c.qp c.entry c.data false start)

/-- Result bytes filled up to whole 16-byte units. What the filling holds is a free value (R454 does not state it;
DESIGN CHOICE, log 37). -/
def State.padded (s : State) (b : Bytes) : Bytes × State :=
  (b ++ (List.range (16 * ceilDiv b.length 16 - b.length)).map (Config.resultPad s.draws), { s with draws := s.draws + 1 })

/-- Writes into the result buffer of a command, encrypted where it is marked S (R453, R454). -/
def State.result (s : State) (k : Call) (secret : Bool) (b : Bytes) : State :=
  let q := s.qp k.qp
  if q.st = .closing || q.st = .disabled then s
  else
    match secret, q.keys with
    | true, some ks =>
      let x := s.padded b
      x.2.send (.dmaWrite k.rptr (Crypto.xtsBuffer false ks.data (fun u => sessTweak u k.seq k.qp 2) x.1))
    | _, _ => s.send (.dmaWrite k.rptr b)

/-- HOST_DMA_READ_FAILURE (R421): the read of a submission entry is retried up to 3 times, then stops the queue
pair; the read of an input buffer ends its command with PARITY_UNRECOVERED. -/
def execHostDmaReadFailure (entry : Bool) (c : HostCmd) (s : State) : Res :=
  let q := s.qp c.qp
  if entry then
    guarded (s.canTake c.qp) s (s.setQp c.qp (if q.fetchFails < 3 then { q with fetchFails := q.fetchFails + 1 }
      else { q with qerr := true, stopped := true }))
  else
    guarded (s.canTake c.qp && fieldAt c.entry 0xC 4 ≠ 0 && opcodes.contains (fieldAt c.entry 0 1)) s
      (s.take c.qp c.entry [] true fun _ s => s)

/-! ### IDENTIFY and ERRLOG_READ -/

/-- Bits of the compute, memory and link dies of a part. -/
def Part.cdPresent (p : Part) : Nat := 2 ^ p.cds - 1
def Part.present (p : Part) : Nat := (2 ^ p.mds - 1) + (2 ^ p.lds - 1) * 2 ^ 24 + 0xF * 2 ^ 32

/-- The identity registers at 0x00 to 0x37 (Table Identity registers). -/
def State.identity (s : State) : Bytes :=
  toBytes 8 (s.dev.siliconRev % 65536 * 2 ^ 32 + s.dev.part.code * 2 ^ 24 + 0x01 * 2 ^ 16) ++ toBytes 8 s.dev.part.cdPresent ++
    toBytes 8 s.dev.part.present ++ toBytes 8 (4096 * 2 ^ 48 + 4096 * 2 ^ 32 + 2048 * 2 ^ 16 + 1024) ++ toBytes 8 s.fw.control ++
    toBytes 8 s.fw.sched ++ toBytes 8 s.dev.serial

/-- Device identity key pair: private key, and public key, zero in RETIRED (R422). -/
def State.devicePub (s : State) : Nat × Nat :=
  if s.dev.seedReadable then Crypto.publicKey s.dev.identityKey else (0, 0)

def doIdentify : Start := fun k s =>
  let pub := s.devicePub
  (s.result k false (padTo (padTo s.identity 0x100 ++ toBytes 48 pub.1 ++ toBytes 48 pub.2) 512)).finish k.ref 0
def execIdentify (c : HostCmd) (s : State) : Res := s.command c 0x01 doIdentify

/-- The 32 bytes of an error log entry (R479). -/
def LogEntry.bytes (e : LogEntry) : Bytes :=
  toBytes 8 e.last ++ toBytes 8 e.first ++ toBytes 5 e.addr ++ toBytes 1 e.source ++
    toBytes 1 (e.level * 32 + e.scope * 4 + 2 * b2n e.unrec + b2n e.stuck) ++ zeros 1 ++ toBytes 2 e.hits ++ toBytes 2 e.status ++ zeros 4

/-- The ERRLOG_READ record of a die (R481). -/
def State.errlog (s : State) (die : Nat) : Bytes :=
  let d := s.die die
  let ovf := d.ovf.zipIdx.foldl (fun n p => n + b2n p.1 * 2 ^ p.2) 0
  toBytes 1 die ++ toBytes 1 d.log.length ++ zeros 2 ++ toBytes 4 d.correctable ++ toBytes 4 d.unrecovered ++
    toBytes 4 d.formatReserved ++ toBytes 4 d.epochStale ++ toBytes 4 d.poisoned ++ toBytes 1 ovf ++
    toBytes 1 (2 * b2n d.fenced + b2n d.proposed) ++ toBytes 1 d.cause ++ zeros 5 ++ toBytes 8 s.now ++ zeros 24 ++
    padTo (d.log.flatMap LogEntry.bytes) 512

def doErrlogRead : Start := fun k s => (s.result k false (s.errlog (k.arg 0 1))).finish k.ref 0
def execErrlogRead (c : HostCmd) (s : State) : Res := s.command c 0x51 doErrlogRead

end Sys2Proof.Machine
end

