-- ==== Sys2Proof/Machine/Serial.lean ====
section
/-! DEFINITION. Serial.lean: the peer ports: frame headers, sequence numbers, acknowledgement, credit, wrapping,
and the pipeline frames of routes (ch. Carousel, frames on the peer links; ch. Rigging, routes). -/

namespace Sys2Proof.Machine

/-! ### Frame headers (R327) -/

def fType (b : Bytes) : Nat := fieldAt b 0 1
def fCclass (b : Bytes) : Nat := bits (fieldAt b 1 1) 6 2
def fCred (b : Bytes) : Nat := bits (fieldAt b 1 1) 0 6
def fSeq (b : Bytes) : Nat := fieldAt b 2 2
def fAck (b : Bytes) : Nat := fieldAt b 4 2
def fNak (b : Bytes) : Bool := bit (fieldAt b 6 2) 0
def fRing (b : Bytes) : Nat := fieldAt b 0x08 8
def fXnum (b : Bytes) : Nat := fieldAt b 0x10 4
def fBlock (b : Bytes) : Nat := fieldAt b 0x14 3
def fAttempt (b : Bytes) : Nat := fieldAt b 0x17 1
def fSamples (b : Bytes) : Nat := fieldAt b 0x18 4
def fContrib (b : Bytes) : Nat := bits (fieldAt b 0x1C 4) 0 14
def fLevel (b : Bytes) : Nat := bits (fieldAt b 0x1C 4) 14 2
def fOvf (b : Bytes) : Bool := bit (fieldAt b 0x1C 4) 16
def fUnchanged (b : Bytes) : Bool := bit (fieldAt b 0x1C 4) 17
def fHalf (b : Bytes) : Bool := bit (fieldAt b 0x1C 4) 18
def fSender (b : Bytes) : Nat := bits (fieldAt b 0x1C 4) 19 13
def fE (b : Bytes) : Nat := fieldAt b 0x20 1
def fUnder (b : Bytes) : Nat := fieldAt b 0x21 1
def fCseq (b : Bytes) : Nat := fieldAt b 0x22 2
def fNonce (b : Bytes) : Bytes := slice b 0x24 12
def fTag (b : Bytes) : Bytes := slice b 0x30 16
def fBody (b : Bytes) : Bytes := slice b 0x40 256
/-- The additional authenticated data of a frame. -/
def fAad (b : Bytes) : Bytes := slice b 0x08 0x28

/-- Credit class of a frame type: 0 REDUCE, 1 PARAM, 2 control, 3 PIPE; none for IDLE (Table Frame types). -/
def classOf (ty : Nat) : Option Nat :=
  if ty = 0 then none else if ty = 1 then some 3 else if ty = 0x18 then some 0 else if ty = 0x19 then some 1
  else if 0x10 ≤ ty && ty ≤ 0x14 then some 2 else none

/-- A frame type that Table Frame types reserves. -/
def reservedType (ty : Nat) : Bool :=
  !(ty = 0 || ty = 1 || (0x10 ≤ ty && ty ≤ 0x14) || ty = 0x18 || ty = 0x19)

/-- A frame of a ring (types 0x10 to 0x19). -/
def ringFrame (b : Bytes) : Bool := 0x10 ≤ fType b && fType b ≤ 0x19

/-! ### Sending (R328) -/

/-- Packets that a link die holds for the rings of its plane (R345, R346). -/
def State.heldOn (s : State) (ld : Nat) : Nat :=
  (s.jobs.map fun j => match j.2.ring with
    | some r => r.held.countP fun b => fBlock b % r.rings = ld
    | none => 0).foldl (· + ·) 0

/-- The hold buffer of a link die, 24 MiB of frames, is full (R346). -/
def State.holdFull (s : State) (ld : Nat) : Bool := 24 * 2 ^ 20 / 320 ≤ s.heldOn ld

/-- The class whose credit the next frame returns: the lowest with receive space to give back. REDUCE credit is
withheld while the hold buffer is full. DESIGN CHOICE, log 12. -/
def State.creditClass (s : State) (p : Nat) : Nat :=
  ((List.range 4).find? fun c => nth 0 (s.port p).free c ≠ 0 && !(c = 0 && s.holdFull (p / 2))).getD 2

/-- Puts a frame on the lanes with the link fields of this moment and the sequence number given. -/
def State.putFrame (s : State) (p seq : Nat) (b : Bytes) : State :=
  let q := s.port p
  let c := s.creditClass p
  let n := min 63 (if c = 0 && s.holdFull (p / 2) then 0 else nth 0 q.free c)
  let f := b.take 1 ++ toBytes 1 (64 * c + n) ++ toBytes 2 seq ++ toBytes 2 q.rxSeq ++ toBytes 2 (b2n q.nak) ++ b.drop 8
  (s.setPort p { q with free := q.free.set c (nth 0 q.free c - n), nak := false }).send (.frame p f)

/-- Sends one frame for the first time: it takes the next number and stays in the retransmit buffer. -/
def State.launch (s : State) (p : Nat) (b : Bytes) : State :=
  let q := s.port p
  let c := classOf (fType b)
  let s := s.putFrame p q.txSeq b
  let q := s.port p
  s.setPort p { q with
    txSeq := (q.txSeq + 1) % 2 ^ 16
    retrans := q.retrans ++ [b.take 2 ++ toBytes 2 q.txSeq ++ b.drop 4]
    pipes := q.pipes + b2n (fType b = 1)
    credits := match c with
      | some c => q.credits.set c (nth 0 q.credits c - 1)
      | none => q.credits }

/-- Frames the retransmit buffer of 2 MiB holds. -/
def retransFrames : Nat := 2 * 2 ^ 20 / 320

/-- The port may send a frame now: it holds credit for its class, and the retransmit buffer has room. -/
def Port.maySend (q : Port) (b : Bytes) : Bool :=
  q.up && q.retrans.length < retransFrames &&
    match classOf (fType b) with
    | some c => nth 0 q.credits c ≠ 0
    | none => true

/-- Sends the waiting frames that credit lets go, in order within each class. -/
def State.pump (s : State) (p : Nat) : State :=
  let w := (s.port p).waiting
  let r := w.foldl (fun (x : State × List Bytes) b =>
    if (x.1.port p).maySend b && x.2.all fun f => classOf (fType f) ≠ classOf (fType b) then (x.1.launch p b, x.2)
    else (x.1, x.2 ++ [b])) (s, [])
  r.1.setPort p { r.1.port p with waiting := r.2 }

/-- Gives a port frames to send. -/
def State.sendFrames (s : State) (p : Nat) (l : List Bytes) : State :=
  if l.isEmpty then s
  else (s.setPort p { s.port p with waiting := (s.port p).waiting ++ l }).pump p

/-- A ring frame goes forward on a plane: by port B, or back by port A where the plane is wrapped (R324). -/
def State.sendForward (s : State) (ld : Nat) (b : Bytes) : State :=
  let pb := s.port (2 * ld + 1)
  s.sendFrames (if pb.up && !pb.wrap then 2 * ld + 1 else 2 * ld) [b]

/-- An IDLE frame (R328). -/
def idleFrame : Bytes := zeros 320

/-! ### Receiving (R326, R328) -/

/-- The retransmit buffer after an acknowledgement of `a`. -/
def acked (a : Nat) (l : List Bytes) : List Bytes :=
  match l.findIdx? fun b => fSeq b = a with
  | some k => l.drop (k + 1)
  | none => l

/-- What an acknowledgement of `a` leaves: a frame that is covered ends the count of failed retransmissions. -/
def Port.ack (q : Port) (a : Nat) : Port :=
  let rest := acked a q.retrans
  if rest.length < q.retrans.length then { q with retrans := rest, fails := 0, resent := false, doubt := 0 } else q

/-- What a NAK says of the oldest frame not acknowledged (R324): the first one, that its first sending has failed;
one that the frames sent behind it bring on, nothing new; the next, that its retransmission has failed. DESIGN CHOICE,
log 76. -/
def Port.refused (q : Port) : Port :=
  if 0 < q.doubt then { q with doubt := q.doubt - 1 }
  else { q with resent := true, doubt := q.retrans.length - 1, fails := if q.resent then q.fails + 1 else q.fails }

/-- The link fields of a received frame take effect: ACK, NAK and credit. -/
def State.linkIn (s : State) (p : Nat) (b : Bytes) : State :=
  let q := (s.port p).ack (fAck b)
  let c := fCclass b
  let q := { q with credits := q.credits.set c (nth 0 q.credits c + fCred b) }
  if fNak b && !q.retrans.isEmpty then q.retrans.foldl (fun s f => s.putFrame p (fSeq f) f) (s.setPort p q.refused)
  else s.setPort p q

/-- A frame is the next in order. -/
def Port.inOrder (q : Port) (b : Bytes) : Bool := fSeq b = (q.rxSeq + 1) % 2 ^ 16

/-- A frame reaches a port: its link fields take effect; a frame in order is delivered and its space given
back, any other is discarded with a NAK; then the port sends what it may, or an IDLE frame. -/
def State.received (s : State) (p : Nat) (b : Bytes) (deliver : State → State) : State :=
  let s := s.linkIn p b
  let q := s.port p
  let s :=
    if q.inOrder b then
      let s := deliver (s.setPort p { q with rxSeq := fSeq b })
      match classOf (fType b) with
      | some c => s.setPort p { s.port p with free := (s.port p).free.set c (nth 0 (s.port p).free c + 1) }
      | none => s
    else s.setPort p { q with nak := true }
  let n := s.wire.length
  let s := s.pump p
  if s.wire.length = n && (s.port p).maySend idleFrame then s.launch p idleFrame else s

/-- A frame of a type comes in at a port of the part that is up. -/
def State.accepts (s : State) (f : FrameIn) (ty : Nat) : Bool :=
  f.port < 2 * s.dev.part.lds && (s.port f.port).up && fType f.bytes = ty

def execIdle (f : FrameIn) (s : State) : Res := guarded (s.accepts f 0) s (s.received f.port f.bytes id)

/-- Counts a tag failure in the ring status record of the job whose ring a frame names (R329, R330). -/
def State.addTagFail (s : State) (ring : Nat) : State :=
  match s.jobs.find? fun j => match j.2.ring with
    | some r => r.id = ring && r.joining.isNone
    | none => false with
  | some (k, j) =>
    match j.ring with
    | some r =>
      let x := satAdd 32 r.stat.tagFails 1
      s.setJob k { j with ring := some { r with stat :=
        { r.stat with tagFails := x.1, ovf := r.stat.ovf.set 6 (nth false r.stat.ovf 6 || x.2) } } }
    | none => s
  | none => s

/-- RESERVED_FRAME (R329). -/
def execReservedFrame (f : FrameIn) (s : State) : Res :=
  guarded (f.port < 2 * s.dev.part.lds && (s.port f.port).up && reservedType (fType f.bytes)) s
    (s.received f.port f.bytes fun s => s.addTagFail (fRing f.bytes))

/-- Records an error in a die's log table (R479, R480). -/
def State.logError (s : State) (die source addr level scope status : Nat) (unrec stuck : Bool) : State :=
  let d := s.die die
  let old := d.log.find? fun e => e.source = source && e.addr = addr
  let e : LogEntry :=
    { last := s.now, first := (old.map (·.first)).getD s.now, addr := addr, source := source, level := level,
      scope := scope, unrec := unrec, stuck := stuck || (old.map (·.stuck)).getD false, hits := (satAdd 16 ((old.map (·.hits)).getD 0) 1).1,
      status := status, rewritten := false }
  let rest := d.log.filter fun x => !(x.source = source && x.addr = addr)
  s.setDie die { d with log := e :: (if old.isSome then rest else rest.take 15) }

/-- A line that fails has been rewritten as a whole since its last error: by its refetch, or by a write of the whole line
(R479; DEDUCED, log 31). -/
def State.failsAgain (s : State) (die source addr : Nat) : Bool :=
  (s.die die).log.any fun e => e.source = source && e.addr = addr && (e.rewritten || (!e.unrec && e.scope = 2))

/-- Adds a recovered error to CORRECTABLE and ERR_DIE of a die (R412, R481, R482). A change of the error summary sets
EVT.ERROR. -/
def State.addCorrectable (s : State) (die : Nat) : State :=
  let d := s.die die
  let r := satAdd 32 d.correctable 1
  let h := satAdd 16 d.hostCorr 1
  let s' := s.setDie die { d with
    correctable := r.1, ovf := d.ovf.set 0 (nth false d.ovf 0 || r.2)
    hostCorr := h.1, hostCorrOvf := d.hostCorrOvf || h.2
    corrTimes := (s.now :: d.corrTimes).take 4096 }
  if h.1 = d.hostCorr && (!r.2 || nth false d.ovf 0) && (!h.2 || d.hostCorrOvf) then s' else s'.event 1

/-- Adds an error that no scope recovers to UNRECOVERED, ERR_DIE and ERR_GLOBAL (R412, R473). -/
def State.addUnrecovered (s : State) (die : Nat) : State :=
  let d := s.die die
  let r := satAdd 32 d.unrecovered 1
  let h := satAdd 16 d.hostUnrec 1
  let s' := s.setDie die { d with
    unrecovered := r.1, ovf := d.ovf.set 1 (nth false d.ovf 1 || r.2)
    hostUnrec := h.1, hostUnrecOvf := d.hostUnrecOvf || h.2
    unrecTimes := (s.now :: d.unrecTimes).take 3 }
  let s' := { s' with host := { s'.host with unrecovered := true } }
  if s.host.unrecovered && h.1 = d.hostUnrec && (!r.2 || nth false d.ovf 1) && (!h.2 || d.hostUnrecOvf) then s' else s'.event 1

/-- FRAME_PARITY_FAILURE (R326, R469): the frame is discarded and asked for again. -/
def execFrameParityFailure (port : Nat) (s : State) : Res :=
  guarded (port < 2 * s.dev.part.lds && (s.port port).up) s
    (let die := 88 + port / 2
     let s := s.setPort port { s.port port with nak := true }
     let s := (s.logError die 3 (256 * die + port % 2) 2 1 0x0701 false false).addCorrectable die
     let n := s.wire.length
     let s := s.pump port
     if s.wire.length = n && (s.port port).maySend idleFrame then s.launch port idleFrame else s)

/-- RECEIVER_LOCK_CHANGE (R324): lost lock starts the 10 us count, regained lock ends it. -/
def execReceiverLockChange (port : Nat) (locked : Bool) (s : State) : Res :=
  guarded (port < 2 * s.dev.part.lds && (s.port port).trained) s
    (s.setPort port { s.port port with lockLost := !locked })

/-- An exchange is in progress on a plane. -/
def State.exchanging (s : State) (ld : Nat) : Bool :=
  s.jobs.any fun j => match j.2.ring with
    | some r => ld < r.rings && r.opened
    | none => false

/-- A wrap ends once the port has trained and no exchange of its plane is in progress (R324). -/
def State.endWrap (s : State) (ld : Nat) : State :=
  if s.exchanging ld then s
  else [2 * ld, 2 * ld + 1].foldl (fun s p => if (s.port p).up && (s.port p).wrap then s.setPort p { s.port p with wrap := false } else s) s

/-- Every plane without an exchange unwraps. -/
def State.endWraps (s : State) : State := (List.range s.dev.part.lds).foldl State.endWrap s

/-- Receive space that a port gives out as it comes up, per class: together no more frames than its receive and
reduction buffer of 2 MiB holds (R328, R346). How the classes share it is open. DESIGN CHOICE, log 12. -/
def portSpace : List Nat :=
  (List.range 4).foldl (fun l c => l ++ [min (Config.portCredit c) (retransFrames - l.sum)]) []

/-- The port at the moment its lanes have trained: up where its partner is a port of the other kind; one cabled to
its own kind accepts no frame and counts as down (R522). -/
def Port.retrained (q : Port) (alike exchanging : Bool) : Port :=
  if alike then { q with trained := true }
  else
    { Port.init with
      trained := true, up := true, free := portSpace, waiting := q.retrans ++ q.waiting
      pipes := q.pipes - q.retrans.countP (fType · = 1), wrap := q.wrap && exchanging }

/-- PORT_TRAINED (R324, R521): the port comes up with a fresh link state and its receive space to give, and
what waited for it is sent as the partner gives credit. A wrap ends now, unless an exchange is in progress. -/
def execPortTrained (link : PortLink) (s : State) : Res :=
  let ⟨port, alike⟩ := link
  guarded (port < 2 * s.dev.part.lds && !(s.port port).trained && s.power.phase != .off) s
    (let q := (s.port port).retrained alike (s.exchanging (port / 2))
     let s := s.setPort port q
     if q.up then (s.launch port idleFrame).pump port else s)

/-! ### Pipeline frames (R331, R373, R374, R456) -/

/-- Segment key of a route (R456). -/
def segmentKey (seed : Bytes) (src dst epoch g : Nat) : Bytes :=
  Crypto.hkdf seed [] (ascii "LGSG" ++ toBytes 1 src ++ toBytes 1 dst ++ zeros 2 ++ toBytes 4 epoch ++ toBytes 8 g) 32

/-- Nonce of a PIPE frame (R331). -/
def pipeNonce (b : Bytes) : Bytes := slice b 0x14 4 ++ slice b 0x18 1 ++ slice b 0x09 1 ++ zeros 6

/-- Destination address and body length of a PIPE frame. -/
def pipeAddr (b : Bytes) : Nat := fieldAt b 0x14 5
def pipeLen (b : Bytes) : Nat := bits (fieldAt b 0x18 4) 16 9

/-- A PIPE frame of a route, its body encrypted. -/
def pipeFrame (key : Bytes) (r : OutRoute) (stage epoch addr : Nat) (body : Bytes) : Bytes :=
  let head := toBytes 8 1 ++ toBytes 8 (r.peer + 256 * (r.port / 2) + 2048 * (r.port % 2)) ++ toBytes 4 epoch ++
    toBytes 5 addr ++ zeros 1 ++ toBytes 2 body.length ++ toBytes 4 (stage * 2 ^ 19) ++ zeros 16
  let x := Crypto.gcmEnc key (pipeNonce head) (fAad head) body
  head ++ x.2 ++ padTo x.1 256

/-- Byte ranges joined where one follows the other. -/
def joinRanges : List (Nat × Nat) → List (Nat × Nat)
  | [] => []
  | (a, n) :: r =>
    match joinRanges r with
    | (b, m) :: t => if a + n = b then (a, n + m) :: t else (a, n) :: (b, m) :: t
    | [] => [(a, n)]

/-- A range cut into pieces of at most four 64-byte lines, none of which crosses a granule, so that each lies in one run. -/
def cutRange : Nat → Nat → Nat → List (Nat × Nat)
  | 0, _, _ => []
  | f + 1, a, n =>
    if n = 0 then []
    else
      let k := min n (min (256 - a % 64) (0x400_0000 - a % 0x400_0000))
      (a, k) :: cutRange f (a + k) (n - k)

/-- The OUT route of a stage whose run holds an address, by its place in the list. -/
def State.outRouteAt (s : State) (g a : Nat) : Option (Nat × OutRoute) :=
  ((s.stage g).outs.zipIdx.map fun p => (p.2, p.1)).find? fun p =>
    p.2.first * 0x400_0000 ≤ a && a < (p.2.first + p.2.count) * 0x400_0000

/-- One write into an OUT route's run leaves as a PIPE frame. -/
def State.pipeOut (s : State) (g a n : Nat) : State :=
  match s.outRouteAt g a, (s.stage g).model with
  | some (k, r), some m =>
    let o := a - r.first * 0x400_0000
    let st := s.stage g
    let f := pipeFrame (segmentKey m.segSeed g r.peer st.epoch r.gen) r g st.epoch (r.base + o) (s.readBytes a n)
    let line := Config.outArrive g r.first
    let gen := if o ≤ line && line + 64 ≤ o + n then r.gen + 1 else r.gen
    let s := s.setStage g { st with outs := st.outs.set k { r with gen := gen } }
    s.sendFrames r.port [f]
  | _, _ => s

/-- Ranges written by an agent of a stage: those in PIPE_OUT granules leave as PIPE frames, and the window
keeps no data (R368, R373). -/
def State.emitPipe (s : State) (g : Nat) (ranges : List (Nat × Nat)) : State :=
  let out := ranges.filter fun r => r.1 < stagingBase && s.granuleKind g 0 (r.1 / 0x400_0000) = 8
  if out.isEmpty then s
  else
    let l := (joinRanges (sortPairs out)).flatMap fun r => cutRange (r.2 / 4 + 3) r.1 r.2
    l.foldl (fun s r => (s.pipeOut g r.1 r.2).zeroRange r.1 r.2) s

/-- Byte ranges that writing a block of a descriptor touches. -/
def Desc.written (d : Desc) (o : List Int) (ext : List Nat) : List (Nat × Nat) :=
  if d.brick then
    let be := ceilDiv (nth 0 ext 0) 16 :: ceilDiv (nth 0 ext 1) 16 :: ext.drop 2
    (positions be).flatMap fun b =>
      let i := plus o (16 * nth 0 b 0 :: 16 * nth 0 b 1 :: b.drop 2)
      if d.inBrick i then
        let off := d.offset i
        [(d.brickAddr off, d.unit), (d.hdrAddr off, 4)] ++ (if d.sums = 0 then [] else [(d.sumAddr off, 32)])
      else []
  else
    (positions ext).filterMap fun t =>
      let i := plus o t
      if d.inb i || (d.inPad i && d.padw) then some ((d.addr i).toNat, d.unit) else none

/-- The stage whose plan of routes a write may leave by has any OUT route. -/
def State.pipeBlock (s : State) (g : Nat) (d : Desc) (o : List Int) (ext : List Nat) : State :=
  if (s.stage g).outs.isEmpty then s else s.emitPipe g (Desc.written d o ext)

/-- PIPE frames given to a port so far: those that its retransmit buffer has taken, and those that wait. -/
def State.pipesGiven (s : State) (p : Nat) : Nat := (s.port p).pipes + (s.port p).waiting.countP (fType · = 1)

/-- The counters of a die that instructions add to and that a replay adds to again (R478). -/
def Die.counts (d : Die) : List Nat := d.formatReserved :: d.narrow :: d.legacy :: d.drops

/-- The clip statistic of a record: elements clipped and converted (R75). -/
def State.clipStat (s : State) (a : Nat) : Nat × Nat := (s.readLE (a + 0x30) 4, s.readLE (a + 0x34) 4)

/-- The bytes that an instruction has written through the descriptors `w`, with what they held: a header is a line of its
own, elements go by 64-byte lines (R51). Accumulator windows and chain tables have the interlocks of R144. -/
def State.written (old s : State) (w : List Desc) : List (Nat × Nat × Byte) :=
  let inside (r : Int × Int) (a : Nat) : Bool := r.1 ≤ (a : Int) && (a : Int) ≤ r.2
  let plain (a : Nat) : Bool := a < 0x6_0000_0000 || match regionAt s.dev.part a with
    | some (.operand _) => true
    | _ => false
  (Memory.changed (old.mem.length + s.mem.length) old.mem s.mem).filterMap fun x =>
    if !plain x.1 then none
    else match w.find? fun d => (d.footprint true).any (inside · x.1) with
      | none => none
      | some d => some (if d.brick && (((d.footprint true)[1]?).any (inside · x.1)) then 2 ^ 41 + x.1 / 4 else x.1 / 64, x.1, x.2)

/-- An instruction whose work has just been done, in the state `old` before it. What it wrote beside its destination in
PIPE_OUT granules leaves as PIPE frames too. It waits for the frames its writes left as, and completes once these are in
the retransmit buffer (R373); it keeps what it counted, in the quantizer records `q` that it uses, and what it wrote
through the descriptors `w`, and the dies that these and the ones it reads, `r`, touch. -/
def State.marked (old : State) (cl unit : Nat) (q : List Nat) (w r : List Desc) (s : State) : State :=
  let s := { s.emitPipe (s.stageOfDie (cl / 16)) s.aside with aside := [] }
  let ports := ((s.stage (s.stageOfDie (cl / 16))).outs.map (·.port)).eraseDups
  let frames := ports.filterMap fun p => if s.pipesGiven p ≠ old.pipesGiven p then some (p, s.pipesGiven p) else none
  let counts := List.zipWith (fun a b => a - b) (s.die (cl / 16)).counts (old.die (cl / 16)).counts
  let quant := q.map fun a => (a, (s.clipStat a).1 - (old.clipStat a).1, (s.clipStat a).2 - (old.clipStat a).2)
  match (s.unitQueue cl unit).reverse with
  | [] => s
  | e :: l =>
    let e := { e with frames := frames, counts := counts, quant := quant, undo := old.written s w, dies := s.dev.part.diesOf (w ++ r) }
    s.setUnit cl unit (e :: l).reverse

/-- Adds to a counter of an inbound route: 0 WRITTEN, 1 STALE, 2 GONE, 3 TAG_FAILS (Table Inbound route status). -/
def InRoute.add (r : InRoute) (k : Nat) : InRoute :=
  let x := satAdd 32 (if k = 0 then r.written else if k = 1 then r.stale else if k = 2 then r.gone else r.tagFails) 1
  let r := { r with ovf := r.ovf.set k (nth false r.ovf k || x.2) }
  match k with
  | 0 => { r with written := x.1 }
  | 1 => { r with stale := x.1 }
  | 2 => { r with gone := x.1 }
  | _ => { r with tagFails := x.1 }

/-- A PIPE frame reaches an IN route: the route afterwards, and the body to write. -/
def InRoute.arrives (r : InRoute) (seed : Bytes) (g st : Nat) (b : Bytes) : InRoute × Option Bytes :=
  let ep := fXnum b
  let a := pipeAddr b
  let n := pipeLen b
  let gen := if r.epoch = some ep then r.gen else 0
  if st ≠ 2 then (r.add 2, none)
  else if (match r.epoch with
      | some e => decide (ep < e)
      | none => false) then (r.add 1, none)
  else if !(r.first * 0x400_0000 ≤ a && a + n ≤ (r.first + r.count) * 0x400_0000 && 1 ≤ n && n ≤ 256) then (r.add 3, none)
  else
    match Crypto.gcmDec (segmentKey seed (fSender b) g ep gen) (pipeNonce b) (fAad b) ((fBody b).take n) (fTag b) with
    | none => (r.add 3, none)
    | some p =>
      let line := r.first * 0x400_0000 + r.arrive
      let hit := a ≤ line && line + 64 ≤ a + n
      let l := p.drop (line - a)
      ({ r.add 0 with
          epoch := some ep
          gen := if hit then gen + 1 else gen
          arrivals := if hit then r.arrivals ++ [(fieldAt l 0 8, fieldAt l 8 4)] else r.arrivals }, some p)

/-- Delivery of a PIPE frame (R374, R395): of the IN routes of its port and sender, the one whose run it names. -/
def State.pipeIn (s : State) (port : Nat) (b : Bytes) : State :=
  let g := bits (fRing b) 0 4
  let st := s.stage g
  let mine : InRoute → Bool := fun r => r.port = port && r.peer = fSender b
  let run := st.ins.findIdx? fun r => mine r && r.first * 0x400_0000 ≤ pipeAddr b && pipeAddr b < (r.first + r.count) * 0x400_0000
  match run <|> st.ins.findIdx? mine with
  | none => s
  | some k =>
    match st.ins[k]? with
    | none => s
    | some r =>
      let seed := (st.model.map (·.segSeed)).getD []
      let x := r.arrives seed g st.st b
      let s := s.setStage g { st with ins := st.ins.set k x.1 }
      match x.2 with
      | some p => (s.writeBytes (pipeAddr b) p).unpoison (pipeAddr b) p.length
      | none => s

/-- PIPE (R374). -/
def execPipe (f : FrameIn) (s : State) : Res :=
  guarded (s.accepts f 1) s (s.received f.port f.bytes fun s => s.pipeIn f.port f.bytes)

end Sys2Proof.Machine
end

