-- ==== Sys2Proof/Machine/Costume.lean ====
section
/-! DEFINITION. Costume.lean: costume images and packages, the directory, audit records, residency and loads,
and the costume commands other than retirement (ch. Costumes). -/

namespace Sys2Proof.Machine

/-! ### The costume image (R253-R258) -/

/-- The next multiple of `m` at or after `n`. -/
def alignUp (m n : Nat) : Nat := ceilDiv n m * m

/-- A head of a costume image as its table gives it (R256). -/
structure Head where
  k : Nat
  n : Nat
  pidx : Nat
  elem : Nat
  scale : Nat
  sum : Nat

def noParam : Nat := 0xFFFFFFFF

def imgOps (b : Bytes) : Nat := fieldAt b 0x10 2
def imgQs (b : Bytes) : Nat := fieldAt b 0x12 2
def imgHeads (b : Bytes) : Nat := fieldAt b 0x14 1 % 16
def imgP (b : Bytes) : Nat := fieldAt b 0x08 4
def imgPV (b : Bytes) : Nat := fieldAt b 0x0C 4
/-- Bytes of one element of the vector section. -/
def imgElem (b : Bytes) : Nat := if bits (fieldAt b 4 4) 16 2 = 1 then 2 else 1
def imgHead (b : Bytes) (h : Nat) : Head :=
  let o := 0x40 + 64 * h
  ⟨fieldAt b o 2, fieldAt b (o + 4) 2, fieldAt b (o + 8) 4, fieldAt b (o + 0xC) 4, fieldAt b (o + 0x10) 4, fieldAt b (o + 0x14) 4⟩
/-- Table entries: the two parameter numbers and the length. -/
def imgOp (b : Bytes) (i : Nat) : Nat × Nat × Nat :=
  let o := fieldAt b 0x18 4 + 16 * i
  (fieldAt b o 4, fieldAt b (o + 4) 4, fieldAt b (o + 8) 3)
def imgQ (b : Bytes) (i : Nat) : Nat × Nat × Nat :=
  let o := fieldAt b 0x1C 4 + 16 * i
  (fieldAt b o 4, fieldAt b (o + 4) 4, fieldAt b (o + 8) 3)
/-- Quantizers whose threshold the costume owns, ascending (R260). -/
def imgAlphas (b : Bytes) : List Nat := (List.range (imgQs b)).filter fun q => (imgQ b q).2.1 ≠ noParam

/-- Numbers one vector in the order of R254: the next free number, and whether the entry agrees. -/
def numberVec (x : Nat × Bool) (pidx len : Nat) : Nat × Bool :=
  if pidx = noParam then x else (x.1 + len, x.2 && pidx = x.1 && 1 ≤ len)

/-- Parameter numbers as R254 gives them: PV, and whether the tables agree. -/
def imgVectors (b : Bytes) : Nat × Bool :=
  let a := (List.range (imgOps b)).foldl (fun x i =>
    let e := imgOp b i
    numberVec (numberVec x e.1 e.2.2) e.2.1 e.2.2) (0, true)
  (List.range (imgQs b)).foldl (fun x i =>
    let e := imgQ b i
    numberVec (numberVec x e.1 e.2.2) e.2.1 1) a

/-- Head layers: the end of the image, the next parameter number, and whether the table agrees (R253, R256, R258). -/
def imgHeadsOk (b : Bytes) (start pidx : Nat) : Nat × Nat × Bool :=
  (List.range (imgHeads b)).foldl (fun (x : Nat × Nat × Bool) h =>
    let e := imgHead b h
    let bricks := e.k * e.n / 256
    let o := 0x40 + 64 * h
    let el := alignUp 64 x.1
    let sc := alignUp 64 (el + 128 * bricks)
    let su := alignUp 64 (sc + 4 * bricks)
    (su + 32 * bricks, x.2.1 + e.k * e.n,
      x.2.2 && e.k % 16 = 0 && 16 ≤ e.k && e.k ≤ 4096 && e.n % 16 = 0 && 16 ≤ e.n && e.n ≤ 8192 &&
        e.pidx = x.2.1 && e.elem = el && e.scale = sc && e.sum = su && fieldAt b (o + 2) 2 = 0 &&
        fieldAt b (o + 6) 2 = 0 && allZero (slice b (o + 0x18) 40))) (start, pidx, true)

/-- Two images number the same parameters: the same operator, quantizer and head tables (R254, R317). -/
def sameLayout (a b : Bytes) : Bool :=
  imgOps a = imgOps b && imgQs a = imgQs b && imgHeads a = imgHeads b && imgP a = imgP b && imgPV a = imgPV b &&
    ((List.range (imgOps a)).all fun i => imgOp a i = imgOp b i) && ((List.range (imgQs a)).all fun i => imgQ a i = imgQ b i) &&
    (List.range (imgHeads a)).all fun h => (imgHead a h).k = (imgHead b h).k && (imgHead a h).n = (imgHead b h).n && (imgHead a h).pidx = (imgHead b h).pidx

/-- Check 3 of R258, with the IMAGE_LEN of the package header. -/
def imageOk (b : Bytes) (len : Nat) : Bool :=
  let ops := imgOps b
  let qs := imgQs b
  let opOff := alignUp 64 (0x40 + 64 * imgHeads b)
  let qOff := alignUp 64 (opOff + 16 * ops)
  let vecOff := alignUp 64 (qOff + 16 * qs)
  let v := imgVectors b
  let pad := alignUp 256 v.1
  let vecEnd := vecOff + imgElem b * pad
  let h := imgHeadsOk b vecEnd pad
  slice b 0 4 == ascii "LGCI" && fieldAt b 4 2 = 1 && bits (fieldAt b 4 4) 16 2 < 2 && bits (fieldAt b 4 4) 18 14 = 0 &&
    ops ≤ 4096 && qs ≤ 4096 && imgHeads b ≤ 8 && bits (fieldAt b 0x14 4) 4 28 = 0 && allZero (slice b 0x28 24) &&
    fieldAt b 0x18 4 = opOff && fieldAt b 0x1C 4 = qOff && fieldAt b 0x20 4 = vecOff &&
    ((List.range ops).all fun i => fieldAt b (opOff + 16 * i + 0xB) 5 = 0) &&
    ((List.range qs).all fun i => fieldAt b (qOff + 16 * i + 0xB) 5 = 0) &&
    v.2 && h.2.2 && imgPV b = v.1 && imgP b = h.2.1 && fieldAt b 0x24 4 = len &&
    (if imgHeads b = 0 then vecEnd else h.1) = len && b.length = len

/-! ### The costume package (R262-R264) -/

def pkgCustomer (b : Bytes) : Nat := fieldAt b 0x10 4
def pkgModel (b : Bytes) : Nat := fieldAt b 0x14 4
def pkgGen (b : Bytes) : Nat := fieldAt b 0x18 4
def pkgImageLen (b : Bytes) : Nat := fieldAt b 0x1C 4

/-- Costume-wrapping key of a customer. -/
def State.wrapKey (s : State) (p : Nat) : Bytes := ((Table.find s.store.principals p).map (·.wrap)).getD []

/-- MAGIC and VERSION of a package (R262, R316). -/
def packageOk (magic : String) (b : Bytes) : Bool := slice b 0 4 == ascii magic && fieldAt b 4 2 = 1

/-- The image of an authentic package (R263), whatever its MAGIC and VERSION. Key, nonce and header as R262 places them. -/
def State.authentic (s : State) (b : Bytes) : Option Bytes :=
  let len := pkgImageLen b
  let w := s.wrapKey (pkgCustomer b)
  if b.length ≠ len + 112 || w.isEmpty then none
  else
    match Crypto.keyUnwrap w (slice b 0x20 40) with
    | none => none
    | some key => Crypto.gcmDec key (slice b 0x48 12) (b.take 0x60) (slice b 0x60 len) (b.drop (0x60 + len))

/-- The image of an authentic package of a kind. -/
def State.openPackage (s : State) (magic : String) (b : Bytes) : Option Bytes := if packageOk magic b then s.authentic b else none

/-- R258 on a package: 0, or the status of the first failed check, and the image. -/
def State.checkPackage (s : State) (b : Bytes) : Nat × Bytes :=
  if 67108864 < pkgImageLen b then (0x0303, [])
  else
    match s.openPackage "LGCP" b with
    | none => (0x0304, [])
    | some img => if imageOk img (pkgImageLen b) then (0, img) else (0x0104, img)

/-- Packages written under a costume key. -/
def State.keyUsed (s : State) (wrapped : Bytes) : Nat := ((s.store.keyUses.find? fun p => p.1 = wrapped).map (·.2)).getD 0

/-- A costume's key unwraps and may be used for another package (R264). -/
def State.canSeal (s : State) (customer : Nat) (wrapped : Bytes) : Bool :=
  match Crypto.keyUnwrap (s.wrapKey customer) wrapped with
  | some _ => s.keyUsed wrapped < 2 ^ 32
  | none => false

/-- Writes a package under a wrapped costume key: a random nonce, one more use of the key, which may not pass
2^32 (R264). None when the key does not unwrap or its uses are spent. -/
def State.sealPackage (s : State) (magic : String) (customer model gen : Nat) (cid : Nat) (wrapped img : Bytes) : Option (Bytes × State) :=
  match Crypto.keyUnwrap (s.wrapKey customer) wrapped with
  | none => none
  | some key =>
    let uses := s.keyUsed wrapped
    if 2 ^ 32 ≤ uses then none
    else
      let r := s.random 12
      let s := { r.2 with store := { r.2.store with keyUses := (wrapped, uses + 1) :: r.2.store.keyUses.filter fun p => p.1 ≠ wrapped } }
      let head := ascii magic ++ toBytes 2 1 ++ zeros 2 ++ toBytes 8 cid ++ toBytes 4 customer ++ toBytes 4 model ++
        toBytes 4 gen ++ toBytes 4 img.length ++ padTo wrapped 40 ++ r.1 ++ zeros 12
      let x := Crypto.gcmEnc key r.1 head img
      some (head ++ x.1 ++ x.2, s)

/-! ### Handles, directory, audit (R265-R268, R287-R289) -/

def handleIdx (h : Nat) : Nat := h % 2 ^ 24
def State.handleOf (s : State) (i : Nat) : Nat := i + 2 ^ 24 * (s.entry i).hgen
def noHandle : Nat := 0xFFFFFFFF

/-- The command an event comes from: queue pair and principal, or the module itself. -/
abbrev Who := Option Nat × Nat
def Call.who (k : Call) : Who := (some k.qp, k.principal)

/-- Flags of an audit record. -/
structure AuditFlags where
  spec : Bool := false
  adopted : Bool := false
  cancelled : Bool := false

/-- Writes an audit record of a directory entry (R287). -/
def State.audit (s : State) (i event stage gen count : Nat) (w : Who) (f : AuditFlags := {}) : State :=
  let e := s.entry i
  let n := s.costumes.auditNext
  let a : Audit :=
    { time := s.now, handle := s.handleOf i, qp := w.1, adopted := f.adopted, cancelled := f.cancelled, spec := f.spec
      stage := stage, event := event, gen := gen, count := count % 2 ^ 32, prev := e.auditHead, principal := w.2 }
  let s := s.setEntry i { e with auditHead := n }
  { s with costumes := { s.costumes with audit := Table.put s.costumes.audit n a, auditNext := (n + 1) % 8388608 } }

/-- The stages that hold a serving copy of a costume, as RESIDENT of its directory entry (R267). -/
def State.residentMask (s : State) (i : Nat) : Nat :=
  (List.range 16).foldl (fun n g => n + b2n (s.costumes.res.any fun r => r.stage = g && r.index = i && r.st = .resident) * 2 ^ g) 0

/-- The 64 bytes of directory entry `i`, at 0x80_0000_0000 + 64 i (R266, R267). -/
def State.entryBytes (s : State) (i : Nat) : Bytes :=
  let e := s.entry i
  toBytes 4 e.customer ++ toBytes 4 e.model ++ toBytes 8 e.costumeId ++
    toBytes 4 (e.st + b2n e.isolate * 2 ^ 4 + b2n e.cached * 2 ^ 5 + b2n e.tuning * 2 ^ 6 + e.hgen * 2 ^ 8 + e.pages * 2 ^ 16) ++
    toBytes 4 e.imageLen ++ toBytes 4 e.gen ++ toBytes 4 e.nvme ++ toBytes 4 e.nsid ++ zeros 4 ++ toBytes 8 e.slba ++
    toBytes 8 e.cacheAddr ++ toBytes 4 e.auditHead ++ toBytes 4 (s.residentMask i)

/-- Who a command was that has caused an event: its queue pair, and the principal whose command it was when it was taken (R287). -/
def State.whoOf (s : State) : Option CmdRef → Who
  | some c => (some c.1, Table.get 0 s.host.issuers c.2)
  | none => (none, 0)

/-- The 32 bytes of an audit record. -/
def Audit.bytes (a : Audit) : Bytes :=
  let w := match a.qp with
    | some q => 2 ^ 31 + q * 2 ^ 21
    | none => 0
  toBytes 8 a.time ++ toBytes 4 a.handle ++
    toBytes 4 (w + b2n a.adopted * 2 ^ 14 + b2n a.cancelled * 2 ^ 13 + b2n a.spec * 2 ^ 12 + a.stage * 2 ^ 8 + a.event) ++
    toBytes 4 a.gen ++ toBytes 4 a.count ++ toBytes 4 a.prev ++ toBytes 4 a.principal

/-- R268: the status with which a command that names a handle ends, 0 when it resolves. `model` is the base model
of the stage in which the command places the costume. A poisoned entry ends it with PARITY_UNRECOVERED (R474). -/
def State.resolve (s : State) (principal h : Nat) (model : Option Nat) : Nat :=
  let e := s.entry (handleIdx h)
  if e.poisoned then 0x0702
  else if !(e.st = 2 || e.st = 3) || s.handleOf (handleIdx h) ≠ h then 0x0302
  else if e.customer ≠ principal then 0x0302
  else if e.st = 3 then 0x0301
  else if (match model with
    | some m => e.model != m
    | none => false) then 0x0302 else 0

/-- A bound session names a stage whose epoch differs from its report's (R460). -/
def State.rerigged (s : State) (k : Call) (g : Nat) : Bool :=
  match (s.qp k.qp).bound with
  | some l => nth 0 l g ≠ (s.stage g).epoch
  | none => false
/-- R358 and R460 for a command that names a stage: 0 when the stage is READY and the session may name it. -/
def State.stageFor (s : State) (k : Call) (g : Nat) : Nat :=
  let st := s.stage g
  if st.st = 0 then 0x0501 else if st.st ≠ 2 || s.rerigged k g then 0x0502 else 0

/-- Base model of a stage. -/
def State.stageModel (s : State) (g : Nat) : Nat := ((s.stage g).cfg.map (·.model)).getD 0

/-! ### Wardrobe pages and residency (R270, R279-R281) -/

/-- Granules of a kind in a stage's plan, in ascending number, with their first addresses. -/
def State.granules (s : State) (g space kind : Nat) : List Nat :=
  match (s.stage g).cfg with
  | some c =>
    (sortPairs (c.runs.filterMap fun r => if r.space = space && r.kind = kind then some (r.first, r.count) else none)).flatMap fun r =>
      (List.range r.2).map fun j => r.1 + j
  | none => []
def granuleAddr (space i : Nat) : Nat := (if space = 1 then stagingBase else 0) + i * 0x400_0000
def page : Nat := 0x10_0000

def State.resident (s : State) (g i : Nat) : Option Resident :=
  s.costumes.res.find? fun r => r.stage = g && r.index = i
def State.setResident (s : State) (r : Resident) : State :=
  let l := r :: s.costumes.res.filter fun x => !(x.stage = r.stage && x.index = r.index)
  { s with costumes := { s.costumes with res := l } }
def State.dropResident (s : State) (g i : Nat) : State :=
  { s with costumes := { s.costumes with res := s.costumes.res.filter fun x => !(x.stage = g && x.index = i) } }
/-- A stage's wardrobe is empty: its granules have been wiped. -/
def State.clearWardrobe (s : State) (g : Nat) : State :=
  { s with costumes := { s.costumes with res := s.costumes.res.filter (fun r => r.stage ≠ g)
                                         scrubs := s.costumes.scrubs.filter (fun x => x.stage ≠ g) } }
def State.stamp (s : State) : Nat × State :=
  (s.costumes.order + 1, { s with costumes := { s.costumes with order := s.costumes.order + 1 } })

/-- Pages a record holds, or is to hold. -/
def Resident.held (r : Resident) : Nat := if r.alt = 0 then r.pages else 2 * r.pages

/-- Where the pages of a record begin. -/
def Resident.bufs (r : Resident) : List Nat := if r.unplaced then [] else r.addr :: if r.alt = 0 then [] else [r.alt]

/-- An address lies in the pages of a record. -/
def Resident.covers (r : Resident) (a : Nat) : Bool := r.bufs.any fun b => b ≤ a && a < b + r.pages * page

/-- The pages of a record are zeroed. -/
def State.zeroImage (s : State) (r : Resident) : State := r.bufs.foldl (fun s b => s.zeroRange b (r.pages * page)) s

/-- A page address is held. -/
def State.pageTaken (s : State) (g a : Nat) : Bool :=
  (s.costumes.res.any fun r => r.stage = g && r.covers a) ||
    s.costumes.scrubs.any fun x => x.stage = g && x.addr ≤ a && a < x.addr + x.pages * page

/-- Pages of a stage's wardrobe. -/
def State.wardrobe (s : State) (g : Nat) : List Nat :=
  (s.granules g 0 2).flatMap fun i => (List.range 64).map fun p => granuleAddr 0 i + p * page

/-- A run of free pages inside one granule begins at this address. -/
def State.runFree (s : State) (g a n : Nat) : Bool :=
  a % 0x400_0000 + n * page ≤ 0x400_0000 && (List.range n).all fun k => !s.pageTaken g (a + k * page)

/-- The lowest run of `n` free pages. DESIGN CHOICE, log 20. -/
def State.findRun (s : State) (g n : Nat) : Option Nat := (s.wardrobe g).find? fun a => s.runFree g a n

/-- Leases a stage's running step holds on a costume. -/
def State.leases (s : State) (g i : Nat) : Nat :=
  match (s.stage g).step with
  | some t => t.groups.countP fun x => x.handle ≠ noHandle && handleIdx x.handle = i
  | none => 0

/-- A step's lease names an image at an address. -/
def State.leasedAt (s : State) (g a : Nat) : Bool :=
  match (s.stage g).step with
  | some t => t.groups.any fun x => x.handle ≠ noHandle && x.image = a
  | none => false

/-- Demand for a costume in a stage: a request or an open job needs it. -/
def State.demanded (s : State) (g i : Nat) : Bool :=
  (s.requests.any fun r => r.stage = g && r.handle ≠ noHandle && handleIdx r.handle = i) ||
    match s.job i with
    | some j => j.stage = g || j.follow.contains g
    | none => false

/-- A tuning job of the stage or one that the stage follows holds the costume (R281). -/
def State.tuneHolds (s : State) (g i : Nat) : Bool :=
  match s.job i with
  | some j => j.number.isSome && (j.stage = g || j.follow.contains g)
  | none => false

/-- A number from 0 to `n` that the manual leaves open. -/
def State.drawUpTo (s : State) (n : Nat) : Nat × State :=
  ((Config.free32 s.draws).toNat % (n + 1), { s with draws := s.draws + 1 })

/-- The audit records of a load that is cancelled. How many bytes have moved by then is a free value, 0 for a load that
still waits for a link die (R288; log 51). -/
def State.auditCancel (s : State) (r : Resident) : State :=
  let f : AuditFlags := { spec := r.spec, adopted := r.adopted, cancelled := true }
  let len := (s.entry r.index).imageLen
  let x := if r.fetching then s.drawUpTo (len + 112) else (0, s)
  let s := if r.fetching then x.2.audit r.index 0x02 r.stage r.gen x.1 (r.qp, r.principal) f else s
  let y := if r.running then s.drawUpTo len else (0, s)
  y.2.audit r.index 0x03 r.stage r.gen y.1 (r.qp, r.principal) f

/-- A pin is removed (R288). -/
def State.auditUnpin (s : State) (r : Resident) (w : Who) : State := if r.pinned then s.audit r.index 0x06 r.stage r.gen 0 w else s

/-- A held image enters SCRUBBING: eviction of a resident image, cancellation of a load (R279, R288). `w` is whose command
has caused it, where one has. -/
def State.scrubOut (s : State) (r : Resident) (w : Who := (none, 0)) : State :=
  let s := s.auditUnpin r w
  let s := if r.st = .resident then s.audit r.index 0x04 r.stage r.gen r.steps w
    else if r.st = .scrubbing then s
    else s.auditCancel r
  s.setResident { r with st := .scrubbing, pinned := false, tuneHeld := false, running := false, fetching := false, pins := []
                         again := none }

/-- A costume may be evicted from a stage (R280). -/
def State.evictable (s : State) (r : Resident) : Bool :=
  r.st = .resident && s.leases r.stage r.index = 0 && !r.pinned && !r.tuneHeld &&
    !s.tuneHolds r.stage r.index

/-- The next image to leave for a demand load: the least recently used evictable one, ties to the lower handle,
then the speculative load started last. -/
def State.victim (s : State) (g : Nat) : Option Resident :=
  let pick (better : Resident → Resident → Bool) (l : List Resident) : Option Resident :=
    l.foldl (fun b r => match b with
      | some x => if better r x then some r else b
      | none => some r) none
  let mine := s.costumes.res.filter fun r => r.stage = g
  match pick (fun r x => r.order < x.order || (r.order = x.order && s.handleOf r.index < s.handleOf x.index)) (mine.filter s.evictable) with
  | some r => some r
  | none => pick (fun r x => x.order < r.order) (mine.filter fun r => r.st = .loadingSpec)

/-- Frees pages for a demand load while they are short; the pages come free when their scrubs end. -/
def State.makeRoom (s : State) (g n : Nat) : Nat → State
  | 0 => s
  | f + 1 =>
    let mine := s.costumes.res.filter fun r => r.stage = g
    let busy := ((mine.filter fun r => r.st ≠ .scrubbing).map Resident.held).foldl (· + ·) 0
    if busy + n ≤ (s.wardrobe g).length then s
    else
      match s.victim g with
      | some r => (s.scrubOut r).makeRoom g n f
      | none => s

/-! ### Storage reads (R438-R440) -/

def State.namespaceOf (s : State) (c nsid : Nat) : Option NvmeNamespace :=
  match s.storage.controllers[c]? with
  | some x => x.namespaces.find? fun n => n.nsid = nsid
  | none => none

/-- A range of a usable namespace (R438): 512- or 4,096-byte data, no metadata, no protection, inside its size. -/
def State.nvmeOk (s : State) (c nsid slba len : Nat) : Bool :=
  match s.namespaceOf c nsid with
  | some n => (n.lba = 512 || n.lba = 4096) && n.metadata = 0 && !n.protection && slba + ceilDiv len n.lba ≤ n.blocks
  | none => false

/-- I/O queue pairs that a controller has granted. -/
def State.nvmeQueues (s : State) (c : Nat) : Nat := max 1 ((s.storage.controllers[c]?.map (·.granted)).getD 1)

/-- Issues a read or a write of a package (R440), on the queue pairs of the controller in turn (DESIGN CHOICE, log 35). -/
def State.nvmeIssue (s : State) (write : Bool) (c nsid slba len : Nat) (data : Bytes) (why : NvmeFor) : State :=
  let lba := ((s.namespaceOf c nsid).map (·.lba)).getD 512
  let n := ceilDiv len lba
  let op : NvmeOp :=
    { id := s.storage.nextId, controller := c, write := write, nsid := nsid, slba := slba, blocks := n, lba := lba
      len := len, queue := s.storage.nextId % s.nvmeQueues c + 1, fua := write, second := false, purpose := why, data := if write then padTo data (n * lba) else [] }
  { s with storage := { s.storage with ops := s.storage.ops ++ [op], nextId := s.storage.nextId + 1 } }.send (.nvme op)

/-! ### The staging cache (R271-R273) -/

/-- Ranges of addresses joined where one ends as the next begins. -/
def joinRuns : List (Nat × Nat) → List (Nat × Nat)
  | [] => []
  | x :: l => match joinRuns l with
    | y :: r => if x.1 + x.2 = y.1 then (x.1, x.2 + y.2) :: r else x :: y :: r
    | [] => [x]

/-- The CACHE granules of the module's plan: ranges of staging addresses, ascending. -/
def State.cacheRuns (s : State) : List (Nat × Nat) :=
  joinRuns (sortPairs (s.modRuns.filterMap fun r => if r.kind = 0x0C then some (granuleAddr 1 r.first, r.count * 0x400_0000) else none))

/-- A package of `n` bytes can lie at an address of the cache. -/
def State.cacheFits (s : State) (n a : Nat) : Bool :=
  s.cacheRuns.any (fun x => x.1 ≤ a && a + n ≤ x.1 + x.2) &&
    s.costumes.cache.all fun c => a + n ≤ c.addr || c.addr + c.bytes.length ≤ a

/-- The lowest place of the cache for a package of `n` bytes. DESIGN CHOICE, log 20. -/
def State.cachePlace (s : State) (n : Nat) : Option Nat :=
  ((sortPairs ((s.cacheRuns.map fun x => (x.1, 0)) ++ s.costumes.cache.map fun c => (alignUp 64 (c.addr + c.bytes.length), 0))).map (·.1)).find?
    (s.cacheFits n)

def State.cached (s : State) (i : Nat) : Option Cached := s.costumes.cache.find? fun c => c.index = i

def State.uncache (s : State) (i : Nat) : State :=
  let s := { s with costumes := { s.costumes with cache := s.costumes.cache.filter fun c => c.index ≠ i } }
  s.setEntry i { s.entry i with cached := false, cacheAddr := 0 }

/-- A load reads a cached package (R273, R284). -/
def State.cacheRead (s : State) (i : Nat) : Bool :=
  s.costumes.res.any fun r => r.index = i && r.running && !r.fetching && (r.st = .loadingSpec || r.st = .loadingDemand)

/-- The least recently loaded package that no load reads (R273). A registration reads its package within one step. -/
def State.cacheVictim (s : State) : Option Cached := s.costumes.cache.find? fun c => !s.cacheRead c.index

/-- Makes room in the cache for a package of `n` bytes. -/
def State.cacheRoom (s : State) (n : Nat) : Nat → State
  | 0 => s
  | f + 1 =>
    if (s.cachePlace n).isSome then s
    else match s.cacheVictim with
      | some c => (s.uncache c.index).cacheRoom n f
      | none => s

/-- Puts a package in the cache as its most recently loaded one, where the cache can hold it. -/
def State.putCache (s : State) (i : Nat) (b : Bytes) : State :=
  let s := s.uncache i
  let s := if s.cacheRuns.any fun x => b.length ≤ x.2 then s.cacheRoom b.length s.costumes.cache.length else s
  match s.cachePlace b.length with
  | some a =>
    let s := { s with costumes := { s.costumes with cache := s.costumes.cache ++ [(⟨i, a, b⟩ : Cached)] } }
    s.setEntry i { s.entry i with cached := true, cacheAddr := a }
  | none => s

/-- A cached package has been loaded: it is the most recently loaded one. -/
def State.touchCache (s : State) (i : Nat) : State :=
  let l := s.costumes.cache
  { s with costumes := { s.costumes with cache := (l.filter fun c => c.index ≠ i) ++ l.filter fun c => c.index = i } }

/-- CACHE_EVICTION (R273). -/
def execCacheEviction (s : State) : Res :=
  match s.cacheVictim with
  | some c => .next (s.uncache c.index)
  | none => .next s

/-! ### Placing an image (R261) -/

/-- The bricks of an image's heads: element offset, header offset, sum offset. -/
def imgBricks (b : Bytes) : List (Nat × Nat × Nat) :=
  (List.range (imgHeads b)).flatMap fun h =>
    let e := imgHead b h
    (List.range (e.k * e.n / 256)).map fun j => (e.elem + 128 * j, e.scale + 4 * j, e.sum + 32 * j)

/-- The status of the brick headers of an image that lies at an address, 0 for a packaged one: the first header that fails
R43 against where its elements lie (R49). -/
def headStatus (b : Bytes) (base : Nat := 0) : Nat :=
  ((imgBricks b).findSome? fun x =>
    let r := (checkHdr (fieldAt b x.2.1 4) (brickTag (base + x.1))).1
    if r = 0 then none else some r).getD 0

/-- Writes an image at an address, its head bricks tagged for it and their sums computed. -/
def State.placeImage (s : State) (a : Nat) (b : Bytes) : State :=
  (imgBricks b).foldl (fun s x =>
    let codes := unpackBrick tyN4 (slice b x.1 128)
    let s := s.writeLE (a + x.2.1) 4 (reTag (fieldAt b x.2.1 4) (brickTag (a + x.1)))
    s.writeBytes (a + x.2.2) ((brickSums tyN4 2 codes).flatMap fun v => toBytes 2 (unsigned v 16)))
    ((s.writeBytes a b).unpoison a (alignUp 64 b.length))

/-- The packaged form of an image held at an address: tags for its offsets, sums 0. -/
def State.packImage (s : State) (a len : Nat) : Bytes :=
  let b := s.readBytes a len
  (imgBricks b).foldl (fun b x =>
    let put (b : Bytes) (o : Nat) (v : Bytes) : Bytes := b.take o ++ v ++ b.drop (o + v.length)
    put (put b x.2.1 (toBytes 4 (reTag (fieldAt b x.2.1 4) (brickTag x.1)))) x.2.2 (zeros 32)) b

/-- The brick headers of a resident image pass R43 where they lie (R49). -/
def State.headsGood (s : State) (r : Resident) : Bool := headStatus (s.readBytes r.addr (s.readLE (r.addr + 0x24) 4)) r.addr = 0

/-- Copies an image within a wardrobe. -/
def State.moveImage (s : State) (src dst len : Nat) : State := s.placeImage dst (s.packImage src len)

/-! ### Loads (R271, R272, R279) -/

def Resident.loading (r : Resident) : Bool := r.st = .loadingSpec || r.st = .loadingDemand

/-- Loads running in the module; at most one on each link die (R271). -/
def State.loads (s : State) : Nat := s.costumes.res.countP fun r => r.running && r.loading

/-- A load begins on a link die: from the cache, or with the storage read of its package (R271 step 1). -/
def State.beginLoad (s : State) (r : Resident) : State :=
  let e := s.entry r.index
  let miss := (s.cached r.index).isNone
  let s := s.setResident { r with running := true, fetching := miss, stored := miss }
  if miss then s.nvmeIssue false e.nvme e.nsid e.slba (e.imageLen + 112) [] (.load r.stage r.index) else s

/-- The load that is to run next: demand before speculation, then the one started first. DESIGN CHOICE, log 20. -/
def State.nextLoad (s : State) : Option Resident :=
  let key (r : Resident) : Nat × Nat := (b2n (r.st = .loadingSpec), r.order)
  let before (a b : Nat × Nat) : Bool := a.1 < b.1 || (a.1 = b.1 && a.2 < b.2)
  (s.costumes.res.filter fun r => r.loading && !r.running && !r.unplaced && s.resident r.stage r.index == some r).foldl (fun b r => match b with
    | some x => if before (key r) (key x) then some r else b
    | none => some r) none

/-- Waiting loads begin while a link die is free. -/
def State.runLoads (s : State) : Nat → State
  | 0 => s
  | f + 1 =>
    if s.dev.part.lds ≤ s.loads then s
    else match s.nextLoad with
      | some r => (s.beginLoad r).runLoads f
      | none => s

/-- Reloads that wait for pages take the runs that have come free, the one started first before the others (R475). -/
def State.placeWaiting (s : State) : State :=
  (sortPairs ((s.costumes.res.filter fun r => r.unplaced && r.loading).map fun r => (r.order, 256 * r.index + r.stage))).foldl (fun s p =>
    match s.resident (p.2 % 256) (p.2 / 256) with
    | none => s
    | some r => match (if r.unplaced && r.loading then s.findRun r.stage r.pages else none) with
      | some a => s.setResident { r with addr := a, alt := 0, unplaced := false }
      | none => s) s
def State.kickLoads (s : State) : State := s.placeWaiting.runLoads s.dev.part.lds

/-- Frees pages of a stage for `n` pages of a demand load (R280); a load that this cancels leaves its link die to another. -/
def State.makeSpace (s : State) (g n : Nat) : State := (s.makeRoom g n (s.costumes.res.length + 1)).kickLoads

/-- A stage's reservations that still stand: their costumes wait there without pages. -/
def State.reserved (s : State) (g : Nat) : List Nat :=
  (Table.get [] s.costumes.reserve g).filter fun i => s.demanded g i && (s.resident g i).isNone && (s.entry i).st = 2

/-- Free pages of a stage are reserved for another costume, which has waited there for longer (R283). -/
def State.reservedFor (s : State) (g i : Nat) : Bool := !((s.reserved g).takeWhile (· ≠ i)).isEmpty

/-- Reserves pages for a load of a costume in a stage where it is ABSENT, if a run of pages is free. -/
def State.startLoad (s : State) (g i : Nat) (spec : Bool) (w : Who) : Option State :=
  let e := s.entry i
  match (if s.reservedFor g i then none else s.findRun g e.pages) with
  | none => none
  | some a =>
    let t := s.stamp
    let r : Resident :=
      { stage := g, index := i, st := if spec then .loadingSpec else .loadingDemand, addr := a, pages := e.pages, alt := 0
        gen := e.gen, spec := spec, adopted := false, pinned := false, tuneHeld := false, steps := 0, order := t.1
        qp := w.1, principal := w.2, running := false, fetching := false, unplaced := false, stored := false, pins := [], line := none, again := none }
    let c := t.2.costumes
    let s := { t.2 with costumes := { c with reserve := Table.set [] c.reserve g ((Table.get [] c.reserve g).filter (· ≠ i)) } }
    some (s.setResident r).kickLoads

/-- A load is adopted by demand. -/
def State.adopt (s : State) (r : Resident) : State :=
  if r.st = .loadingSpec then s.setResident { r with st := .loadingDemand, adopted := true } else s

/-- The offset and length of an image's vector section, its end on a 64-byte boundary. -/
def imgVec (b : Bytes) : Nat × Nat := (fieldAt b 0x20 4, imgElem b * alignUp 256 (imgPV b))

/-- A packaged image laid out with the vector-section format `fmt`: each element decoded and encoded again, and
what follows the section moved. -/
def relay (b : Bytes) (fmt : Nat) : Bytes :=
  let old := bits (fieldAt b 4 4) 16 2
  if old = fmt then b
  else
    let v := imgVec b
    let n := alignUp 256 (imgPV b)
    let elems := (List.range n).flatMap fun k =>
      let x := plainToF32 (if old = 1 then tyW16 else tyE8) (fieldAt b (v.1 + imgElem b * k) (imgElem b))
      if fmt = 1 then toBytes 2 (toW16 (Fp.dec .f32 x) false).1 else toBytes 1 (toE8 (Fp.dec .f32 x) 0).1
    let start := alignUp 64 (v.1 + v.2)
    let start' := alignUp 64 (v.1 + elems.length)
    let move (x : Nat) : Bytes := toBytes 4 (x + start' - start)
    let len := if imgHeads b = 0 then v.1 + elems.length else fieldAt b 0x24 4 + start' - start
    let heads := (List.range (imgHeads b)).flatMap fun h =>
      let e := imgHead b h
      slice b (0x40 + 64 * h) 12 ++ move e.elem ++ move e.scale ++ move e.sum ++ zeros 40
    padTo (slice b 0 4 ++ toBytes 2 1 ++ toBytes 2 fmt ++ slice b 8 28 ++ toBytes 4 len ++ zeros 24 ++ heads ++
      slice b (0x40 + 64 * imgHeads b) (v.1 - 0x40 - 64 * imgHeads b) ++ elems ++ zeros (start' - v.1 - elems.length) ++ b.drop start) len

/-- Pages of a costume that hold no image any more enter SCRUBBING, from which alone they come free (R20, R279). -/
def State.vacate (s : State) (r : Resident) (a : Nat) : State :=
  if a = 0 then s else { s with costumes := { s.costumes with scrubs := s.costumes.scrubs ++ [(⟨r.stage, r.index, a, r.pages⟩ : Scrub)] } }

/-- Gives a costume under tuning its second serving-copy buffer (R181, R281), laid out in the job's serving format.
When that format needs more pages than the image holds, both buffers take new pages. DESIGN CHOICE, log 22. -/
def State.tuneBuffers (s : State) (g : Nat) (r : Resident) : State :=
  let fmt := ((s.job r.index).map fun j => bits (fieldAt j.opt 0 4) 10 2).getD 0
  let cur := s.packImage r.addr (s.readLE (r.addr + 0x24) 4)
  let new := relay cur fmt
  let n := ceilDiv new.length page
  let wait (n : Nat) : State := (s.setResident { r with tuneHeld := true }).makeSpace g n
  if n ≤ r.pages then
    match s.findRun g r.pages with
    | some a => (s.setResident { r with alt := a, tuneHeld := true }).placeImage a new
    | none => wait r.pages
  else
    match s.findRun g n with
    | none => wait (2 * n)
    | some a =>
      let t := s.setResident { r with alt := a, pages := n, tuneHeld := true }
      match t.findRun g n with
      | some b =>
        if s.leases g r.index ≠ 0 then s
        else (((s.vacate r r.addr).setResident { r with addr := a, alt := b, pages := n, tuneHeld := true }).placeImage a new).placeImage b new
      | none => wait (2 * n)

/-- The costume and the stage that a command put aside waits for: a COSTUME_PIN, or a TUNE_OPEN of a fresh job. A command
that FENCE holds back has not started, and waits for none. -/
def Held.costume (h : Held) : Option (Nat × Nat) :=
  if h.fence then none
  else if h.opcode = 0x23 && !bit (fieldAt h.params 5 1) 0 || h.opcode = 0x38 && !bit (fieldAt h.params 7 1) 0 then
    some (handleIdx (fieldAt h.params 0 4), fieldAt h.params 4 1)
  else none

/-- The commands put aside for a costume, in a stage or, without one, in any, end with a status. -/
def State.failHeld (s : State) (waits : Nat × Nat → Bool) (status : Nat) (r1 : Nat := 0) : State :=
  let mine (h : Held) : Bool := h.costume.any waits
  (s.host.held.filter mine).foldl (fun s h => s.finish (h.qp, h.id) status 0 r1)
    { s with host := { s.host with held := s.host.held.filter fun h => !mine h } }

/-- A load that fails: its pages are scrubbed, and the pins and the TUNE_OPEN that wait for it end with the status. A pin
that the image of a reload had ends with it (DESIGN CHOICE, log 30). -/
def State.failLoad (s : State) (r : Resident) (status : Nat) (r1 : Nat := 0) : State :=
  let s := r.pins.foldl (fun s c => s.finish c status 0 r1) s
  let s := (s.failHeld (· = (r.index, r.stage)) status r1).auditUnpin r (none, 0)
  let s := if status = 0x0304 then s.audit r.index 0x0B r.stage r.gen 0 (r.qp, r.principal) else s
  (s.setResident { r with st := .scrubbing, pinned := false, tuneHeld := false, running := false, fetching := false, pins := []
                          line := none }).kickLoads

/-- The end of a load whose package is in the cache: RESIDENT, one more load from storage after a tag failure of
the cached copy (R272), or failure with the status given. -/
def State.finishLoad (s : State) (r : Resident) (b : Bytes) : State × Nat :=
  let c := s.checkPackage b
  let st := if c.1 ≠ 0 then c.1 else headStatus c.2
  let e := s.entry r.index
  if st = 0 then
    let s := s.placeImage r.addr c.2
    let t := s.stamp
    let f : AuditFlags := { spec := r.spec, adopted := r.adopted }
    let s := t.2.audit r.index 0x03 r.stage (pkgGen b) c.2.length (r.qp, r.principal) f
    let s := r.pins.foldl (fun s p => (s.audit r.index 0x05 r.stage (pkgGen b) 0 (s.whoOf (some p))).finish p 0) s
    (((s.touchCache r.index).setResident
        { r with st := .resident, line := none, gen := pkgGen b, order := t.1, pinned := r.pinned || !r.pins.isEmpty, pins := []
                 running := false, tuneHeld := s.tuneHolds r.stage r.index }).kickLoads, 0)
  else if st = 0x0304 && !r.stored then
    (((s.uncache r.index).setResident { r with fetching := true, stored := true }).nvmeIssue false e.nvme e.nsid e.slba
      (e.imageLen + 112) [] (.load r.stage r.index), 0)
  else ((if st = 0x0304 then s.uncache r.index else s).failLoad r st, st)

/-- A resident image is loaded again on demand, in the run of pages that begins at `a` or, without one, once one comes free;
the old pages enter SCRUBBING. What exempts it from eviction stays (R281, R475). `line` is the failing line that it refetches. -/
def State.reload (s : State) (r : Resident) (old : List Scrub) (a line : Option Nat) : State :=
  let t := (s.audit r.index 0x04 r.stage r.gen r.steps (none, 0)).stamp
  let s := { t.2 with costumes := { t.2.costumes with scrubs := t.2.costumes.scrubs ++ old } }
  let s := s.setResident { r with st := .loadingDemand, addr := a.getD 0, alt := 0, unplaced := a.isNone, spec := false, adopted := false, steps := 0
                                  order := t.1, qp := none, principal := 0, running := false, fetching := false, stored := false, line := line }
  if a.isNone then s.makeSpace r.stage 0 else s.kickLoads

/-- Pages that a reload has replaced are zeroed and free. -/
def State.endScrub (s : State) (x : Scrub) : State :=
  let s := s.zeroRange x.addr (x.pages * page)
  { s with costumes := { s.costumes with scrubs := s.costumes.scrubs.filter (· ≠ x) } }.kickLoads

/-- The pages of an image in SCRUBBING are zeroed and the costume is ABSENT; a prefetch that came meanwhile loads it again
(R279, R284). -/
def State.scrubbed (s : State) (r : Resident) : State :=
  let s := ((s.zeroImage r).dropResident r.stage r.index).kickLoads
  match r.again with
  | some w => if (s.entry r.index).st = 2 && (s.stage r.stage).st = 2 then (s.startLoad r.stage r.index true w).getD s else s
  | none => s

/-- PAGE_SCRUB_COMPLETE (R279): the scrub of an image's pages, or of those that a reload has replaced (R475), ends. -/
def execPageScrubComplete (stage handle : Nat) (s : State) : Res :=
  let i := handleIdx handle
  match s.costumes.scrubs.find? fun x => x.stage = stage && x.index = i && !s.leasedAt stage x.addr with
  | some x => .next (s.endScrub x)
  | none =>
    match s.resident stage i with
    | some r => guarded (r.st = .scrubbing && !r.bufs.any (s.leasedAt stage)) s (s.scrubbed r)
    | none => .next s

/-- COSTUME_RELOCATION (R270): an unleased image moves to the run of pages that begins at page `page` of the
stage's wardrobe, and its old pages are zeroed. An image with a header that fails R43 is not moved (R49). -/
def execCostumeRelocation (stage handle page : Nat) (s : State) : Res :=
  let i := handleIdx handle
  match s.resident stage i, (s.wardrobe stage)[page]? with
  | some r, some a =>
    guarded (r.st = .resident && s.leases stage i = 0 && s.runFree stage a r.pages && s.headsGood r) s
      (((s.moveImage r.addr a (s.readLE (r.addr + 0x24) 4)).zeroRange r.addr (r.pages * Machine.page)).setResident { r with addr := a }).kickLoads
  | _, _ => .next s

/-! ### Commands -/

/-- An entry returns to FREE: its handle is not valid again (R269, R285). -/
def State.freeEntry (s : State) (i : Nat) : State :=
  let e := s.entry i
  let s := s.uncache i
  let s := s.setEntry i { e with st := 0, hgen := if e.hgen = 0xFE then 0 else e.hgen + 1, cached := false, cacheAddr := 0,
                                 tuning := false, poisoned := false, retire := none, ended := 0 }
  { s with costumes := { s.costumes with freed := s.costumes.freed ++ [i] } }

/-- COSTUME_REGISTER (R269): from here on the entry is its customer's, and starts a chain of audit records. The entry freed
longest ago is REGISTERING while its package is read. -/
def doCostumeRegister : Start := fun k s =>
  let nvme := k.arg 0 1
  let len := k.arg 0x10 4
  let c := s.costumes
  let slot : Option (Nat × Costumes) :=
    if c.fresh < 2 ^ 24 then some (c.fresh, { c with fresh := c.fresh + 1 })
    else match c.freed with
      | i :: r => some (i, { c with freed := r })
      | [] => none
  match slot with
  | none => s.finish k.ref 0x0802
  | some (i, c) =>
    let s := { s with costumes := c }
    let e := s.entry i
    let s := s.setEntry i { e with st := 1, customer := k.principal, auditHead := 0xFFFFFFFF, isolate := bit (k.arg 1 1) 0, nvme := nvme, nsid := k.arg 4 4, slba := k.arg 8 8 }
    if !s.nvmeOk nvme (k.arg 4 4) (k.arg 8 8) len then (s.freeEntry i).finish k.ref 0x0104
    else s.nvmeIssue false nvme (k.arg 4 4) (k.arg 8 8) len [] (.register k.qp k.id i)
def execCostumeRegister (c : HostCmd) (s : State) : Res := s.command c 0x20 doCostumeRegister

/-- Steps 2 to 4 of R269, once the package has been read. -/
def State.registered (s : State) (qp id i : Nat) (b : Bytes) : State :=
  let r : CmdRef := (qp, id)
  let e := s.entry i
  let p := e.customer
  let fail (st : Nat) : State := ((s.audit i 0x02 0 (pkgGen b) b.length (some qp, p)).freeEntry i).finish r st
  if e.st ≠ 1 then s
  else if pkgCustomer b ≠ p then fail 0x0605
  else
    let c := s.checkPackage b
    if c.1 ≠ 0 then fail c.1
    else
      let s := s.setEntry i { e with st := 2, customer := p, model := pkgModel b, costumeId := fieldAt b 8 8, gen := pkgGen b
                                     imageLen := pkgImageLen b, pages := ceilDiv (pkgImageLen b) page, auditHead := 0xFFFFFFFF
                                     wrapped := slice b 0x20 40, tables := c.2.take (fieldAt c.2 0x20 4) }
      let s := s.putCache i b
      let s := s.audit i 0x02 0 (pkgGen b) b.length (some qp, p)
      let s := s.audit i 0x01 0 (pkgGen b) b.length (some qp, p)
      s.finish r 0 (s.handleOf i)

/-- COSTUME_PREFETCH (R282). Where the costume's pages are being scrubbed, it is loaded once the scrub ends (R284). -/
def doCostumePrefetch : Start := fun k s =>
  let h := k.arg 0 4
  let i := handleIdx h
  let stages := (List.range 16).filter fun g => bit (k.arg 4 2) g
  let bad := (stages.map fun g => let a := s.stageFor k g; if a ≠ 0 then a else s.resolve k.principal h (some (s.stageModel g))).find? (· ≠ 0)
  let st := bad.getD (s.resolve k.principal h none)
  let later (r : Resident) : Bool := r.st = .scrubbing && r.again.isNone
  let new := stages.filter fun g => match s.resident g i with
    | some r => later r
    | none => true
  let out := s.costumes.res.countP fun r => r.st = .loadingSpec || r.again.isSome
  if st ≠ 0 then s.finish k.ref st
  else if 64 < out + new.length then s.finish k.ref 0x0802
  else (new.foldl (fun s g => match s.resident g i with
    | some r => s.setResident { r with again := some k.who }
    | none => (s.startLoad g i true k.who).getD s) s).finish k.ref 0
def execCostumePrefetch (c : HostCmd) (s : State) : Res := s.command c 0x22 doCostumePrefetch

/-- The costume that a COSTUME_PIN put aside is to pin in a stage. -/
def Held.pinOf (g : Nat) (h : Held) : Option Nat :=
  (h.costume.filter fun x => h.opcode = 0x23 && x.2 = g).map (·.1)

/-- Pages that pins and tuning jobs hold in a stage, or are to hold once their costume is loaded (R281), but for those of
costume `but`. -/
def State.heldPages (s : State) (g : Nat) (but : Nat := noHandle) : Nat :=
  let here := (s.costumes.res.filter fun r => r.stage = g && r.index ≠ but).map fun r =>
    if r.tuneHeld || s.tuneHolds g r.index then 2 * r.pages
    else if r.pinned || !r.pins.isEmpty then r.pages else 0
  let absent (i : Nat) : Bool := i ≠ but && (s.resident g i).isNone
  let jobs := (s.jobs.map (·.1)).filter fun i => absent i && s.tuneHolds g i
  let pins := ((s.host.held.filterMap (Held.pinOf g)).eraseDups).filter fun i => absent i && !jobs.contains i
  (here ++ (jobs.map fun i => 2 * (s.entry i).pages) ++ pins.map fun i => (s.entry i).pages).foldl (· + ·) 0

/-- A tuning job that is open, active or waiting, is to hold the costume in the stage (R281). -/
def State.tuneOpen (s : State) (g i : Nat) : Bool := (s.job i).any fun j => j.stage = g || j.follow.contains g

/-- Pages that the jobs waiting for a number are to hold in a stage beside what is held now: they are part of the share of
R281 while their jobs are open, so that no activation passes it. -/
def State.waitingPages (s : State) (g : Nat) : Nat :=
  ((s.jobs.map (·.1)).map fun i =>
    if !s.tuneOpen g i || s.tuneHolds g i then 0
    else match s.resident g i with
      | some r => if r.tuneHeld then 0 else if r.pinned || !r.pins.isEmpty then r.pages else 2 * r.pages
      | none => 2 * (s.entry i).pages).foldl (· + ·) 0
def State.shareOk (s : State) (g n : Nat) : Bool := 4 * (s.heldPages g + s.waitingPages g + n) ≤ 3 * (s.wardrobe g).length

/-- COSTUME_PIN (R281): it completes when the costume is RESIDENT and pinned. Without room it waits. -/
def doCostumePin : Start := fun k s =>
  let h := k.arg 0 4
  let i := handleIdx h
  let g := k.arg 4 1
  let a := s.stageFor k g
  let st := if a ≠ 0 then a else s.resolve k.principal h (some (s.stageModel g))
  if st ≠ 0 then s.finish k.ref st
  else if bit (k.arg 5 1) 0 then
    match s.resident g i with
    | some r => (if r.pinned then (s.setResident { r with pinned := false }).audit i 0x06 g r.gen 0 k.who else s).finish k.ref 0
    | none => s.finish k.ref 0
  else
    let extra := match s.resident g i with
      | some r => if r.pinned || r.tuneHeld || s.tuneOpen g i || !r.pins.isEmpty then 0 else r.pages
      | none => if s.tuneOpen g i || s.host.held.any (fun h => h.pinOf g = some i) then 0 else (s.entry i).pages
    if !s.shareOk g extra then s.finish k.ref 0x0303
    else
      match s.resident g i with
      | some r =>
        match r.st with
        | .resident =>
          (if r.pinned then s else (s.setResident { r with pinned := true }).audit i 0x05 g r.gen 0 k.who).finish k.ref 0
        | .scrubbing => s.hold k false
        | _ =>
          let s := s.adopt r
          match s.resident g i with
          | some r => s.setResident { r with pins := r.pins ++ [k.ref] }
          | none => s
      | none =>
        match s.startLoad g i false k.who with
        | some t =>
          match t.resident g i with
          | some r => t.setResident { r with pins := [k.ref] }
          | none => t
        | none => (s.makeSpace g (s.entry i).pages).hold k false
def execCostumePin (c : HostCmd) (s : State) : Res := s.command c 0x23 doCostumePin

/-- The walk of R289: records newest first, and whether it stopped short: older ones were overwritten, or a record cannot be read
(R474). -/
def State.auditWalk (s : State) (h : Nat) : Nat → Nat → Nat → List Audit × Bool
  | 0, _, _ => ([], false)
  | f + 1, i, last =>
    if i = 0xFFFFFFFF then ([], false)
    else match Table.find s.costumes.audit i with
      | none => ([], true)
      | some a =>
        if a.handle ≠ h || last < a.time || s.poisoned (0x80_4000_0000 + 32 * i) 32 then ([], true)
        else
          let r := s.auditWalk h f a.prev a.time
          (a :: r.1, r.2)

/-- COSTUME_AUDIT (R289). A handle that R268 does not resolve, that of a retiring costume among them, is not found
(DEDUCED, log 51). -/
def doCostumeAudit : Start := fun k s =>
  let h := k.arg 0 4
  let e := s.entry (handleIdx h)
  let st := s.resolve k.principal h none
  let after := if h / 2 ^ 24 = 0xFE then 0 else h / 2 ^ 24 + 1
  let freed := e.st = 0 && e.hgen = after && e.customer = k.principal
  if (st = 0 || freed) && !(e.poisoned) then
    let r := s.auditWalk h (min (k.arg 4 4) 8388608) e.auditHead (2 ^ 64)
    (s.result k true (r.1.flatMap Audit.bytes)).post k.ref ⟨0, r.1.length, 0, false, r.2, false⟩
  else s.finish k.ref (if st = 0x0702 then st else 0x0302)
def execCostumeAudit (c : HostCmd) (s : State) : Res := s.command c 0x24 doCostumeAudit

end Sys2Proof.Machine
end

