-- ==== Sys2Proof/Machine/Image.lean ====
section
/-! DEFINITION. Image.lean: the rigging image: its sections, and the checks of phases A and B (ch. Rigging
images and stages R360-R382). -/

namespace Sys2Proof.Machine

/-! ### Sections (R360-R362) -/

/-- A section: its 16-byte header and its body. -/
structure Sect where
  ty : Nat
  stage : Nat
  head : Bytes
  body : Bytes

/-- The sections of an image from an offset on; none where the framing of R361 fails. -/
def sections (b : Bytes) : Nat → Nat → Option (List Sect)
  | 0, _ => none
  | f + 1, off =>
    if off = b.length then some []
    else
      let h := slice b off 16
      let n := fieldAt h 4 4
      let stop := alignUp 64 (off + 16 + n)
      if b.length < stop || fieldAt h 2 2 ≠ 0 || !allZero (h.drop 8) || !allZero (slice b (off + 16 + n) (stop - off - 16 - n)) then none
      else (sections b f stop).map fun l => ⟨fieldAt h 0 1, fieldAt h 1 1, h, slice b (off + 16) n⟩ :: l

/-- The place of a section in the order of R362: the module first, then stage by stage in ascending TYPE. -/
def Sect.key (x : Sect) : Nat := (if x.stage = 0xFF then 0 else x.stage + 1) * 8 + x.ty

def ascending : List Nat → Bool
  | a :: b :: r => decide (a < b) && ascending (b :: r)
  | _ => true

/-- Equal pieces of a body. -/
def records (n : Nat) (b : Bytes) : List Bytes := (List.range (b.length / n)).map fun k => slice b (n * k) n

/-- The body of a stage's section of a type. -/
def sectBody (l : List Sect) (g ty : Nat) : Option Bytes := (l.find? fun x => x.stage = g && x.ty = ty).map (·.body)

/-! ### STRUCTURE, MEMORY and ROUTES (R363, R364, R367, R372) -/

def structDies (b : Bytes) : List Nat := (List.range 64).filter fun k => bit (fieldAt b 0 8) k
def structOps (b : Bytes) : Nat := fieldAt b 0x40 2
def structQs (b : Bytes) : Nat := fieldAt b 0x42 2
def structHeads (b : Bytes) : Nat := fieldAt b 0x44 1

/-- Format of a STRUCTURE body: its length and its RES0 fields. -/
def structOk (b : Bytes) : Bool :=
  let n := structOps b + structQs b
  128 ≤ b.length && b.length = 128 + 8 * (n + structHeads b) && bits (fieldAt b 0x10 1) 5 3 = 0 && !bit (fieldAt b 0x10 1) 1 &&
    fieldAt b 0x15 3 = 0 && allZero (slice b 0x1E 34) && fieldAt b 0x45 1 = 0 && fieldAt b 0x4D 3 = 0 && fieldAt b 0x55 3 = 0 &&
    allZero (slice b 0x5C 36) &&
    ((List.range n).all fun k => fieldAt b (128 + 8 * k + 2) 2 = 0 && fieldAt b (128 + 8 * k + 7) 1 = 0) &&
    (List.range (structHeads b)).all fun k => fieldAt b (128 + 8 * (n + k) + 6) 2 = 0

def runsOf (b : Bytes) : List Run := (records 16 b).map fun r => ⟨fieldAt r 0 2, fieldAt r 2 2, fieldAt r 4 1, fieldAt r 5 1⟩
def runsFormat (b : Bytes) : Bool := b.length % 16 = 0 && (records 16 b).all fun r => allZero (slice r 6 10)

def routeFormat (r : Bytes) : Bool :=
  fieldAt r 3 1 = 0 && fieldAt r 0xD 3 = 0 && allZero (slice r 0x14 12) &&
    match fieldAt r 0 1 with
    | 1 => bits (fieldAt r 1 1) 5 3 = 0 && allZero (slice r 2 30)
    | 2 => bits (fieldAt r 1 1) 4 4 = 0 && bits (fieldAt r 2 1) 4 4 = 0 && fieldAt r 0x10 4 = 0
    | 3 => bits (fieldAt r 1 1) 4 4 = 0 && bits (fieldAt r 2 1) 4 4 = 0 && fieldAt r 8 5 = 0
    | _ => true

/-- The stage digest (R379): headers and bodies of the sections of types 1 to 5, in image order. -/
def digestOf (l : List Sect) (g : Nat) : Bytes :=
  Crypto.sha384 ((l.filter fun x => x.stage = g && x.ty < 6).flatMap fun x => x.head ++ x.body)

/-- What a stage's sections fix for it. -/
def cfgOf (l : List Sect) (g : Nat) : StageCfg :=
  let b := (sectBody l g 1).getD []
  let n := structOps b
  let q := structQs b
  let e (k off w : Nat) : Nat := fieldAt b (128 + 8 * k + off) w
  let routes := records 32 ((sectBody l g 2).getD [])
  { dies := structDies b, model := fieldAt b 8 4, owner := fieldAt b 0xC 4, fixedCadence := bit (fieldAt b 0x10 1) 4
    background := bits (fieldAt b 0x10 1) 2 2 = 1, split := bit (fieldAt b 0x10 1) 0, quantum := fieldAt b 0x11 1
    scrubPeriod := fieldAt b 0x12 2, entryTune := bits (fieldAt b 0x14 1) 4 4, entryServe := bits (fieldAt b 0x14 1) 0 4
    cadPeriod := fieldAt b 0x18 4, cadRows := fieldAt b 0x1C 2
    ops := (List.range n).map fun k => (e k 0 2, e k 4 3)
    qs := (List.range q).map fun k => (e (n + k) 0 2, e (n + k) 4 3)
    heads := (List.range (structHeads b)).map fun k => (e (n + q + k) 0 2, e (n + q + k) 2 2, e (n + q + k) 4 2)
    maxTrows := fieldAt b 0x46 2, passRec := fieldAt b 0x48 5, shadow := fieldAt b 0x50 5, shadowLen := fieldAt b 0x58 4
    runs := runsOf ((sectBody l g 3).getD [])
    paths := routes.filterMap fun r => if fieldAt r 0 1 = 1 then some (bits (fieldAt r 1 1) 0 2, bits (fieldAt r 1 1) 2 2, bits (fieldAt r 1 1) 4 1) else none
    digest := digestOf l g }

/-- An image's sections as a whole. -/
structure Image where
  full : Bool
  sects : List Sect
  stages : List Nat              -- stages it names, ascending

def Image.cfg (m : Image) (g : Nat) : StageCfg := cfgOf m.sects g
def Image.routes (m : Image) (g : Nat) : List Bytes := records 32 ((sectBody m.sects g 2).getD [])
/-- Granules of the module's own plan. -/
def Image.module (m : Image) : List Run := runsOf ((sectBody m.sects 0xFF 3).getD [])
/-- Stages that get dies. -/
def Image.live (m : Image) : List Nat := m.stages.filter fun g => !(m.cfg g).dies.isEmpty

/-- Sections of one stage as A1 asks: types, lengths and RES0 fields. -/
def stageFormat (l : List Sect) (g : Nat) : Bool :=
  let has (ty : Nat) : Bool := (sectBody l g ty).isSome
  match sectBody l g 1 with
  | none => false
  | some b =>
    structOk b &&
      (if structDies b = [] then (l.filter fun x => x.stage = g).length = 1 else has 3 && has 4) &&
      (match sectBody l g 2 with
       | some r => r.length % 32 = 0 && (records 32 r).all routeFormat
       | none => true) &&
      runsFormat ((sectBody l g 3).getD []) &&
      match sectBody l g 6 with
      | some r => r.length = 112 && allZero (slice r 4 12)
      | none => true

/-- Check A1. -/
def parseImage (part : Part) (b : Bytes) : Option Image :=
  let full := bit (fieldAt b 7 1) 0
  let n := fieldAt b 0xC 1
  if b.length < 64 || slice b 0 4 != ascii "LGRG" || fieldAt b 4 2 ≠ 1 || fieldAt b 6 1 ≠ part.code || 1 < fieldAt b 7 1 ||
      fieldAt b 8 4 ≠ b.length || b.length % 64 ≠ 0 || !allZero (slice b 0xD 51) || n = 0 || (if full then 16 else 1) < n then none
  else match sections b (b.length / 64 + 1) 64 with
    | none => none
    | some l =>
      let stages := (l.map (·.stage)).filter (· ≠ 0xFF) |>.eraseDups
      let mod := (l.filter fun x => x.stage = 0xFF).map (·.ty)
      if l.all (fun x => 1 ≤ x.ty && x.ty ≤ 6 && (x.stage < 16 || x.stage = 0xFF)) && ascending (l.map Sect.key) &&
          mod = (if full then [3] else []) && runsFormat ((sectBody l 0xFF 3).getD []) && stages.length = n && stages.all (stageFormat l)
      then some ⟨full, l, stages⟩ else none

/-! ### Plans (R366-R370) -/

def Run.meets (a b : Run) : Bool := a.space = b.space && a.first < b.first + b.count && b.first < a.first + a.count
/-- Runs of two plans share a granule. -/
def meet (a b : List Run) : Bool := a.any fun x => b.any x.meets

/-- No two runs of a list share a granule. -/
def apart : List Run → Bool
  | [] => true
  | x :: r => !r.any x.meets && apart r

/-- A kind lies in its space (Table Granule kinds). -/
def kindSpace (kind space : Nat) : Bool :=
  if space = 0 then 1 ≤ kind && kind ≤ 9 else space = 1 && (kind = 6 || (0xA ≤ kind && kind ≤ 0xD))
def moduleKind (kind : Nat) : Bool := kind = 0xC || kind = 0xD

/-- A run lies in the part, outside the granules reserved under R266, and its kind in its space and owner. -/
def runOk (part : Part) (mod : Bool) (r : Run) : Bool :=
  1 ≤ r.count && r.count ≤ 8192 && kindSpace r.kind r.space && moduleKind r.kind = mod &&
    (if r.space = 0 then r.first + r.count ≤ part.mdGranules else 20 ≤ r.first && r.first + r.count ≤ part.stGranules)

/-- Granules that a byte range touches all have this kind. -/
def within (runs : List Run) (space kind a n : Nat) : Bool :=
  let base := if space = 1 then stagingBase else 0
  let lo := (a - base) / 0x400_0000
  base ≤ a && (List.range ((a + n - 1 - base) / 0x400_0000 + 1 - lo)).all fun k =>
    runs.any fun r => r.space = space && r.kind = kind && r.first ≤ lo + k && lo + k < r.first + r.count

def kindCount (runs : List Run) (kind : Nat) : Nat :=
  ((runs.filter fun r => r.kind = kind).map (·.count)).foldl (· + ·) 0

/-- Largest parameter count that the adaptation table admits (R365). -/
def StageCfg.pMax (c : StageCfg) : Nat :=
  let v := (c.ops.map fun e => 2 * e.2).foldl (· + ·) 0 + (c.qs.map fun e => e.2 + 1).foldl (· + ·) 0
  alignUp 256 v + (c.heads.map fun h => h.2.1 * h.2.2).foldl (· + ·) 0

/-! ### Phase A (R382) -/

/-- A2 for one stage record. -/
def recordOk (part : Part) (epoch : Nat) (b : Bytes) : Bool :=
  let d := structDies b
  let scrub := bits (fieldAt b 0x10 1) 2 2
  epoch ≠ 0xFFFFFFFF && d.all (· < part.cds) && scrub < 2 && fieldAt b 0x11 1 ≤ 64 &&
    !(scrub = 1 && (32 < d.length || fieldAt b 0x12 2 = 0)) &&
    (!bit (fieldAt b 0x10 1) 4 ||
      (10 ≤ fieldAt b 0x18 4 && fieldAt b 0x18 4 ≤ 1000000 && 16 ≤ fieldAt b 0x1C 2 && fieldAt b 0x1C 2 ≤ 8192 && fieldAt b 0x1C 2 % 16 = 0))

/-- Fenced dies of a plan or of routes (A3). -/
def State.fencedBy (s : State) (c : StageCfg) (routes : List Bytes) : Bool :=
  c.dies.any (fun d => (s.die d).fenced) ||
    ((List.range s.dev.part.mds).any fun m => (s.die (64 + m)).fenced && c.runs.any fun r => r.space = 0 && r.first < 16 * m + 16 && 16 * m < r.first + r.count) ||
    routes.any fun r => (fieldAt r 0 1 = 2 || fieldAt r 0 1 = 3) && (s.die (88 + fieldAt r 1 1 % 8)).fenced

/-- Stages that are rigged and that the image does not rig. -/
def State.others (s : State) (m : Image) : List StageCfg :=
  (List.range 16).filterMap fun g => if m.stages.contains g then none else (s.stage g).cfg

/-- A5: an index twice. -/
def StageCfg.twice (c : StageCfg) : Bool :=
  let dup (l : List Nat) : Bool := l.eraseDups.length ≠ l.length
  dup (c.ops.map (·.1)) || dup (c.qs.map (·.1)) || dup (c.heads.map (·.1))

/-- A6. -/
def StageCfg.adaptOk (c : StageCfg) : Bool :=
  c.ops.length ≤ 4096 && c.qs.length ≤ 4096 && c.heads.length ≤ 8 && (c.ops ++ c.qs).all (fun e => e.1 < 4096 && 0 < e.2) &&
    c.heads.all (fun h => h.1 < 8 && h.2.1 % 16 = 0 && 16 ≤ h.2.1 && h.2.1 ≤ 4096 && h.2.2 % 16 = 0 && 16 ≤ h.2.2 && h.2.2 ≤ 8192) &&
    c.maxTrows % 16 = 0 && 16 ≤ c.maxTrows && c.maxTrows ≤ 8192 && c.passRec % 64 = 0 && c.shadow % 64 = 0 &&
    4 * c.pMax + 256 * c.qs.length + 64 ≤ c.shadowLen

/-- A7 for one stage: TABLES, the pass record and the shadow region (R370). -/
def StageCfg.tablesOk (c : StageCfg) : Bool :=
  within c.runs 0 9 c.passRec 64 && within c.runs 0 9 c.shadow c.shadowLen &&
    (c.passRec + 64 ≤ c.shadow || c.shadow + c.shadowLen ≤ c.passRec) &&
    64 + c.shadowLen + 0x40_0000 ≤ kindCount c.runs 9 * 0x400_0000

/-- A7 for the whole image. -/
def State.plansOk (s : State) (m : Image) (cs : List StageCfg) : Bool :=
  let mod := if m.full then m.module else s.modRuns
  let all := cs.flatMap (·.runs) ++ mod ++ (s.others m).flatMap (·.runs)
  (cs.flatMap (·.runs)).all (runOk s.dev.part false) && m.module.all (runOk s.dev.part true) && apart all &&
    kindCount all 2 ≤ (match s.dev.part with
      | .lg100 => 128
      | .lg052 => 64) && cs.all StageCfg.tablesOk

/-- A8 for one route record. -/
def routeOk (part : Part) (c : StageCfg) (r : Bytes) : Bool :=
  let kind := if fieldAt r 0 1 = 2 then 8 else 7
  match fieldAt r 0 1 with
  | 1 => part.code = 1 && bits (fieldAt r 1 1) 2 2 = bits (fieldAt r 1 1) 0 2 ^^^ 3
  | 2 | 3 =>
    fieldAt r 1 1 % 8 < part.lds && 0 < fieldAt r 6 2 && within c.runs 0 kind (fieldAt r 4 2 * 0x400_0000) (fieldAt r 6 2 * 0x400_0000) &&
      (kind = 8 || (fieldAt r 0x10 4 % 64 = 0 && fieldAt r 0x10 4 < fieldAt r 6 2 * 0x400_0000))
  | _ => false
def routesOk (part : Part) (c : StageCfg) (l : List Bytes) : Bool :=
  l.all (routeOk part c) &&
    apart (l.filterMap fun r => if fieldAt r 0 1 = 1 then none else some ⟨fieldAt r 4 2, fieldAt r 6 2, 0, 0⟩)

/-- A9 for one stage (R381). -/
def State.signedOk (s : State) (m : Image) (g : Nat) : Bool :=
  let strict := !(s.host.lifecycle = 0 || s.host.lifecycle = 1)
  let owner := (m.cfg g).owner
  match sectBody m.sects g 6 with
  | none => !strict && owner = 0
  | some b => fieldAt b 0 4 = owner && !(strict && owner = 0)

/-- A2 to A9 on an image that passes A1: 0, or the status of the first check that fails. -/
def State.phaseA (s : State) (m : Image) : Nat :=
  let live := m.live
  let cs := live.map m.cfg
  let other := s.others m
  let shared (l : List Nat) : Bool := l.eraseDups.length ≠ l.length
  let taken := other.flatMap (·.runs)
  if !m.stages.all (fun g => recordOk s.dev.part (s.stage g).epoch ((sectBody m.sects g 1).getD [])) then 0x0504
  else if live.any fun g => s.fencedBy (m.cfg g) (m.routes g) then 0x0703
  else if shared (cs.flatMap (·.dies)) || cs.any (fun c => c.dies.any fun d => other.any fun o => o.dies.contains d) ||
      meet (cs.flatMap (·.runs) ++ m.module) taken then 0x0504
  else if cs.any StageCfg.twice then 0x0405
  else if !cs.all StageCfg.adaptOk then 0x0504
  else if !s.plansOk m cs then 0x0504
  else if !live.all (fun g => routesOk s.dev.part (m.cfg g) (m.routes g)) then 0x0504
  else if !live.all (s.signedOk m) then 0x0505 else 0

/-! ### PROGRAMS (R229, R376) -/

/-- Bits [lo + w - 1 : lo] set. -/
def fieldMask (l : List (Nat × Nat)) : Nat := l.foldl (fun n p => n + (2 ^ p.2 - 1) * 2 ^ p.1) 0

/-- The bits that an instruction's own tables name, by opcode and KIND (R228); none for a reserved opcode. -/
def namedBits (op kind : Nat) : Option Nat :=
  (match op with
   | 0x00 | 0x01 => some []
   | 0x02 => some [(17, 7), (32, 16)]
   | 0x03 => some [(17, 18), (48, 16)]
   | 0x04 => some [(17, 5)]
   | 0x08 => some [(17, 5), (64, 64)]
   | 0x09 => some [(17, 20), (64, 32)]
   | 0x0A => some [(17, 14), (32, 12)]
   | 0x0B => some [(17, 17)]
   | 0x10 | 0x11 | 0x12 => some [(17, 50)]
   | 0x18 | 0x19 | 0x1A => some [(17, 20)]
   | 0x20 => some [(17, 2), (20, 16), (42, 60)]
   | 0x21 => some [(17, 96)]
   | 0x28 => some [(16, 109)]
   | 0x30 => some [(16, if kind < 2 then 32 else 37)]
   | _ => none).map fun l => fieldMask ((0, 16) :: l)

/-- Vector functions, and those without an F64 form (Table Vector functions). -/
def vecFns : List Nat :=
  [0, 1, 2, 3, 4, 5, 6, 7, 8, 9, 0xA, 0xB, 0xC, 0xD, 0x10, 0x11, 0x18, 0x19, 0x1A, 0x1B, 0x1C, 0x1D, 0x20, 0x21, 0x22,
   0x28, 0x29, 0x2A, 0x30, 0x31, 0x38, 0x39, 0x3C]
def vecNoF64 : List Nat := [0x18, 0x19, 0x1A, 0x1B, 0x1C, 0x1D, 0x22, 0x28, 0x29, 0x2A, 0x30, 0x31, 0x38, 0x39]

/-- The checks of R229 on one instruction of a program of `n` instructions. -/
def wordOk (n w : Nat) : Bool :=
  let op := w % 256
  let fn := bits w 17 8
  match namedBits op (bits w 18 2) with
  | none => false
  | some mask =>
    w &&& (2 ^ 128 - 1 - mask) = 0 && (16 ≤ op || !bit w 8) &&
      (match op with
       | 0x02 => bits w 32 16 ≠ 0
       | 0x03 => bits w 48 16 ≠ 0
       | 0x04 => bits w 17 2 ≠ 3
       | 0x09 => bits w 17 4 < 13
       | 0x0A => bits w 17 4 < 7 && bits w 32 12 < n
       | 0x21 => bits w 17 2 ≠ 3 && bits w 36 2 < 2
       | 0x28 => vecFns.contains fn && !((fn = 0x30 || fn = 0x31) && 9 < bits w 116 4) && !(bit w 50 && vecNoF64.contains fn)
       | 0x30 => true
       | _ => op < 0x10 || bits w 17 2 ≠ 3)

/-- The constant that a register holds at an instruction: the last instruction before it that writes the register
is an SLI. DESIGN CHOICE, log 24. -/
def constantAt (prog : List Nat) : Nat → Nat → Option Nat
  | 0, r => if r = 0 then some 0 else none
  | k + 1, r =>
    let w := nth 0 prog k
    if r = 0 then some 0
    else if w % 256 = 8 && bits w 17 5 = r then some (bits w 64 32)
    else if w % 256 = 9 && bits w 21 5 = r then none
    else constantAt prog k r

/-- R161 and R168: the parameter of a catalog function, where it is a constant. -/
def catalogOk (prog : List Nat) (k : Nat) : Bool :=
  let w := nth 0 prog k
  let cat := bits w 116 4
  if w % 256 = 0x28 && (bits w 17 8 = 0x30 || bits w 17 8 = 0x31) then
    match constantAt prog k (bits w 120 5) with
    | none => true
    | some c =>
      if cat = 1 then c ≤ 0x3F800000 || c = 0x80000000
      else if cat = 5 || cat = 9 then 0 < c && c < 0x7F800000 else true
  else true

/-- Where an instruction may go on. -/
def successors (w k : Nat) : List Nat :=
  if w % 256 = 1 then [] else if w % 256 = 0xA then (if bits w 17 4 = 0 then [bits w 32 12] else [k + 1, bits w 32 12]) else [k + 1]

/-- Instructions reached from a work list. -/
def reach (prog : List Nat) : Nat → List Nat → List Nat → List Nat
  | 0, _, seen => seen
  | _, [], seen => seen
  | f + 1, k :: r, seen => if seen.contains k then reach prog f r seen else reach prog f (successors (nth 1 prog k) k ++ r) (k :: seen)

/-- R120 for a split stage: T0 issues no transposed product, and serving work goes to T0 alone. -/
def splitOk (prog : List Nat) (serve : Nat) : Bool :=
  prog.all (fun w => !((w % 256 = 0x11 || w % 256 = 0x12) && bits w 17 2 = 0)) &&
    (reach prog (3 * prog.length + 3) [serve] []).all fun k =>
      let w := nth 0 prog k
      !((w % 256 = 0x10 || w % 256 = 0x11 || w % 256 = 0x12) && bits w 17 2 ≠ 0)

/-- A cluster record (R376). -/
structure ClusterRec where
  cl : Nat
  entries : List Nat
  args : List (List Nat)
  words : List Nat

/-- The cluster records of a PROGRAMS body; none where B1 fails. -/
def clusterRecs (c : StageCfg) : Nat → Bytes → Option (List ClusterRec)
  | _, [] => some []
  | 0, _ => none
  | f + 1, b =>
    let n := fieldAt b 2 2
    let ev := fieldAt b 4 2
    let die := fieldAt b 0 1
    let entries := (List.range 16).map fun e => fieldAt b (64 + 2 * e) 2
    let words := (List.range n).map fun k => fieldAt b (608 + 16 * k) 16
    let last := nth 0 words (n - 1)
    if n = 0 || 4096 < n || b.length < 608 + 16 * n || !c.dies.contains die || 16 ≤ fieldAt b 1 1 || !allZero (slice b 6 58) ||
        !bit ev c.entryServe || !bit ev c.entryTune || entries.any (4096 ≤ ·) ||
        (List.range 16).any (fun e => bit ev e && n ≤ nth 0 entries e) ||
        !words.all (wordOk n) || !(last = 1 || last % 256 = 1 || (last % 256 = 0xA && bits last 17 4 = 0)) ||
        !(List.range n).all (catalogOk words) || (c.split && !splitOk words (nth 0 entries c.entryServe)) then none
    else (clusterRecs c f (b.drop (608 + 16 * n))).map fun r =>
      ⟨16 * die + fieldAt b 1 1, entries, (List.range 16).map (fun e => (List.range 4).map fun j => fieldAt b (96 + 32 * e + 8 * j) 8), words⟩ :: r

/-- B1: the programs of a stage. -/
def Image.programs (m : Image) (g : Nat) : Option (List ClusterRec) :=
  let b := (sectBody m.sects g 4).getD []
  match clusterRecs (m.cfg g) (b.length / 608 + 1) b with
  | some l => if ascending (l.map (·.cl)) then some l else none
  | none => none

/-! ### CONSTANTS (R378) -/

/-- The constant records of a body. -/
def constantRecs : Nat → Bytes → Option (List (Nat × Bytes))
  | _, [] => some []
  | 0, _ => none
  | f + 1, b =>
    let n := fieldAt b 8 4
    if b.length < 16 || fieldAt b 5 3 ≠ 0 || fieldAt b 12 4 ≠ 0 || fieldAt b 0 5 % 64 ≠ 0 || n < 16 || n % 16 ≠ 0 || b.length < 16 + n then none
    else (constantRecs f (b.drop (16 + n))).map fun r => (fieldAt b 0 5, slice b 16 n) :: r

/-- A constant lies in the operand memory of one cluster of the stage, or in its WORK granules. -/
def constantIn (part : Part) (c : StageCfg) (a n : Nat) : Bool :=
  match regionOf part a (a + n - 1 : Nat) with
  | some (.operand cl) => c.dies.contains (cl / 16)
  | _ => within c.runs 0 6 a n || within c.runs 1 6 a n

/-- The 64 bytes are a descriptor that gives an outlier map to a tensor in the stage's WARDROBE granules. The trainable
parameters of a stage are those of costume images, which lie there and nowhere else (R94, R293; DEDUCED, log 49). -/
def mapsTrainable (c : StageCfg) (b : Bytes) : Bool :=
  let d := Desc.ofNat (leNat b)
  d.brick && !d.legacy && 2 ≤ d.rank && d.rank ≤ 6 && d.omap ≠ 0 && within c.runs 0 2 d.base 1

/-- The descriptors that a program can load from a constant record stand in its 64-byte lines. -/
def constantMaps (c : StageCfg) (b : Bytes) : Bool :=
  (List.range (b.length / 64)).any fun k => mapsTrainable c (slice b (64 * k) 64)

/-- B2: the constants of a stage. -/
def Image.constants (part : Part) (m : Image) (g : Nat) : Option (List (Nat × Bytes)) :=
  let b := (sectBody m.sects g 5).getD []
  let c := m.cfg g
  if 0x80_0000 * c.dies.length < b.length then none
  else match constantRecs (b.length / 32 + 1) b with
    | none => none
    | some l =>
      let spans := l.map fun p => (⟨p.1, p.2.length, 0, 0⟩ : Run)
      if l.all (fun p => constantIn part c p.1 p.2.length && !constantMaps c p.2) && apart spans then some l else none

/-! ### SIGNATURES (R380) -/

/-- The 64-byte signed message of a stage. -/
def Image.message (part : Part) (m : Image) (g : Nat) : Bytes :=
  let c := m.cfg g
  ascii "LGRS" ++ toBytes 1 part.code ++ toBytes 1 g ++ zeros 2 ++ toBytes 4 c.model ++ toBytes 4 c.owner ++ c.digest

/-- B3: a signature that is present verifies under the verification key of the model owner it names. -/
def State.verified (s : State) (m : Image) (g : Nat) : Bool :=
  match sectBody m.sects g 6 with
  | none => true
  | some b =>
    match Table.find s.store.principals (fieldAt b 0 4) with
    | some p => p.kind = 2 && Crypto.ecdsaVerify p.vx p.vy (Crypto.sha384 (m.message s.dev.part g)) (fieldAt b 0x10 48) (fieldAt b 0x40 48)
    | none => false

end Sys2Proof.Machine
end

