-- ==== Sys2Proof/Machine/Serving.lean ====
section
/-! DEFINITION. Serving.lean: serving requests, their KV pages and tokens, cancellation, and the end of a
session's work (ch. Host interface R425-R430). -/

namespace Sys2Proof.Machine

/-! ### KV pages (R427) -/

/-- Addresses of the KV pages of a stage, by page number. -/
def State.kvSpace (s : State) (g : Nat) : List Nat :=
  (s.granules g 0 3).flatMap fun i => (List.range 64).map fun p => granuleAddr 0 i + p * page

/-- A page is reserved for a request. -/
def State.kvTaken (s : State) (g p : Nat) : Bool :=
  s.requests.any fun r => r.stage = g && match r.kvFirst with
    | some f => f ≤ p && p < f + r.kvPages
    | none => false

/-- The lowest run of `n` free pages. DESIGN CHOICE, log 21. -/
def State.kvRun (s : State) (g n : Nat) : Option Nat :=
  let len := (s.kvSpace g).length
  (List.range len).find? fun p => p + n ≤ len && (List.range n).all fun k => !s.kvTaken g (p + k)

/-- Zeros over the KV pages of a request (R463). -/
def State.scrubKv (s : State) (r : Request) : State :=
  match r.kvFirst with
  | some f => (List.range r.kvPages).foldl (fun s k => s.zeroRange (nth 0 (s.kvSpace r.stage) (f + k)) page) s
  | none => s

/-! ### Tokens and completions (R429, R430, R454, R466) -/

/-- The taken command of a reference. -/
def State.cmdOf (s : State) (r : CmdRef) : Option Cmd := (s.qp r.1).cmds.find? fun c => c.id = r.2

/-- Writes emitted token `i` of a request: the 16-byte unit that holds it, under the data key (R454). -/
def State.writeToken (s : State) (r : Request) (i : Nat) : State :=
  let q := s.qp r.cmd.1
  match s.cmdOf r.cmd, q.keys with
  | some c, some k =>
    if q.st = .closing || q.st = .disabled then s
    else
      let u := i / 4
      let x := s.padded (((r.emitted.take (i + 1)).drop (4 * u)).flatMap fun t => toBytes 4 t)
      x.2.send (.dmaWrite (c.rptr + 16 * u) (Crypto.xtsUnit false k.data (sessTweak u c.seq r.cmd.1 2) x.1))
  | _, _ => s

/-- A completion of a stage's step: held for the period boundary in fixed cadence (R466). -/
def State.deliver (s : State) (g : Nat) (r : CmdRef) (p : Comp) : State :=
  match (s.stage g).cfg with
  | some c => if c.fixedCadence then s.setStage g { s.stage g with posts := (s.stage g).posts ++ [(r, p)] } else s.post r p
  | none => s.post r p

def State.request (s : State) (id : Nat) : Option Request := s.requests.find? fun r => r.id = id
def State.setRequest (s : State) (r : Request) : State :=
  { s with requests := s.requests.map fun x => if x.id = r.id then r else x }

/-- Counts a cancelled request in the CLOSE_SESSION that waits on its queue pair (R423). -/
def State.countCancelled (s : State) (n : Nat) : State :=
  let q := s.qp n
  if !q.closeTaken then s
  else s.setQp n { q with cmds := q.cmds.map fun c =>
    if c.opcode = 0x04 then { c with waiting := c.waiting.map fun w => { w with r0 := w.r0 + 1 } } else c }

/-- A request ends: its pages are zeroed, its retirement counts it, and its final completion carries the status. `late`
says that it ends with a step, whose completions fixed cadence holds back. -/
def State.endRequest (s : State) (r : Request) (status : Nat) (cancelled late : Bool) (r1 : Nat := 0) : State :=
  let s := { s.scrubKv r with requests := s.requests.filter fun x => x.id ≠ r.id }
  let i := handleIdx r.handle
  let s := if status = 0x0301 && r.handle ≠ noHandle then s.setEntry i { s.entry i with ended := (s.entry i).ended + 1 } else s
  let s := match r.canceller with
    | some c => s.finish c 0 (b2n cancelled)
    | none => s
  let s := if cancelled then s.countCancelled r.cmd.1 else s
  let p : Comp := ⟨status, r.emitted.length, r1, false, false, cancelled⟩
  if late then s.deliver r.stage r.cmd p else s.post r.cmd p

/-- A request has rows in the running step of its stage. -/
def State.inStep (s : State) (r : Request) : Bool :=
  match (s.stage r.stage).step with
  | some t => t.groups.any fun g => g.job.isNone && g.rows.any fun x => x.owner = r.id
  | none => false

/-- SERVE_CANCEL of one request (R430). -/
def State.cancelRequest (s : State) (r : Request) (c : Option CmdRef) : State :=
  if s.inStep r then s.setRequest { r with cancel := true, canceller := if r.canceller.isSome then r.canceller else c }
  else { r with canceller := c } |> fun r => s.endRequest r 0 true false

/-! ### Loads on demand (R271, R283) -/

/-- A costume's image is larger than the stage's wardrobe without what pins and tuning jobs hold there. -/
def State.tooLarge (s : State) (g i : Nat) : Bool := (s.wardrobe g).length < (s.entry i).pages + s.heldPages g i

/-- The requests of a stage that wait for a costume end with COSTUME_TOO_LARGE. -/
def State.endTooLarge (s : State) (g i : Nat) : State :=
  s.requests.foldl (fun s r =>
    if r.stage = g && r.handle ≠ noHandle && handleIdx r.handle = i && !s.inStep r then s.endRequest r 0x0303 false false else s) s

/-- COSTUME_LOAD (R271): reserves the pages of a costume that a step, pin or job demands, evicting under R280, and starts the
load; ends the requests whose costume can never be served in the stage (R283); adopts a speculative load; gives a costume
under tuning its second buffer. -/
def State.costumeLoad (s : State) (g i : Nat) : State :=
  let e := s.entry i
  match s.resident g i with
  | none =>
    match s.startLoad g i false (none, 0) with
    | some t => t
    | none => if s.tooLarge g i then s.endTooLarge g i else s.makeSpace g e.pages
  | some r =>
    match r.st with
    | .loadingSpec => s.adopt r
    | .resident =>
      if s.tuneHolds g i && r.alt = 0 then
        s.tuneBuffers g r
      else s
    | _ => if r.unplaced && r.loading then s.makeSpace g 0 else s
def execCostumeLoad (stage handle : Nat) (s : State) : Res :=
  let i := handleIdx handle
  guarded (stage < 16 && (s.stage stage).st = 2 && (s.entry i).st = 2 && s.handleOf i = handle && (s.entry i).model = s.stageModel stage &&
    s.demanded stage i) s (s.costumeLoad stage i)

/-! ### SERVE_SUBMIT and SERVE_CANCEL -/

/-- A costume's heads have the shapes that the stage declares (R275). -/
def headsFit (c : StageCfg) (tables : Bytes) : Bool :=
  (List.range (imgHeads tables)).all fun h =>
    let e := imgHead tables h
    match c.heads.find? fun x => x.1 = h with
    | some x => x.2.1 = e.k && x.2.2 = e.n
    | none => true

/-- Checks of SERVE_SUBMIT (R426, R358, R359, R268, R275, R283). -/
def State.submitStatus (s : State) (k : Call) : Nat :=
  let g := k.arg 4 1
  let h := k.arg 0 4
  let a := s.stageFor k g
  let i := handleIdx h
  match (s.stage g).cfg with
  | none => if a = 0 then 0x0501 else a
  | some c =>
    if a ≠ 0 then a
    else if (s.kvSpace g).length < k.arg 0x10 2 || (s.granules g 0 6).isEmpty || ((s.stage g).ins.isEmpty && k.arg 0x18 8 ≠ 0) then 0x0104
    else if (s.stage g).model.isNone then 0x0801
    else if h = noHandle then 0
    else
      let b := s.resolve k.principal h (some c.model)
      if b ≠ 0 then b
      else if !headsFit c (s.entry i).tables then 0x0104
      else if s.tooLarge g i && (match s.resident g i with
        | some r => r.st = .scrubbing
        | none => true) then 0x0303 else 0

/-- Before new work of a stage is taken: where its lead has none left there, the lead's turn is over (R398). -/
def State.noteIdle (s : State) (g : Nat) : State :=
  let q := (s.stage g).lead
  if s.requests.any (fun r => r.stage = g && r.cmd.1 = q) || s.jobs.any (fun x => x.2.stage = g && x.2.feeds.any fun f => f.cmd.1 = q) then s
  else s.setStage g { s.stage g with turnOver := true }

def doServeSubmit : Start := fun k s =>
  let st := s.submitStatus k
  if st ≠ 0 then s.finish k.ref st
  else
    let n := k.arg 8 4
    let r : Request :=
      { id := s.nextReq, cmd := k.ref, principal := k.principal, handle := k.arg 0 4, stage := k.arg 4 1
        prompt := (List.range n).map fun j => fieldAt k.data (4 * j) 4, maxNew := k.arg 0xC 4, kvPages := k.arg 0x10 2
        stepTag := k.arg 0x18 8, kvFirst := none, placed := 0, emitted := [], cancel := false, canceller := none }
    let s := s.noteIdle r.stage
    { s with requests := s.requests ++ [r], nextReq := s.nextReq + 1 }
def execServeSubmit (c : HostCmd) (s : State) : Res := s.command c 0x30 doServeSubmit

/-- SERVE_CANCEL (R430). -/
def doServeCancel : Start := fun k s =>
  match s.requests.find? fun r => r.cmd.1 = k.qp && ((s.cmdOf r.cmd).map (·.seq)) = some (k.arg 0 4) with
  | some r => if r.cancel then s.finish k.ref 0 0 else s.cancelRequest r (some k.ref)
  | none => s.finish k.ref 0 0
def execServeCancel (c : HostCmd) (s : State) : Res := s.command c 0x31 doServeCancel

/-! ### The end of a session (R416, R425) -/

/-- A command is released without a completion. -/
def State.release (s : State) (r : CmdRef) : State :=
  let q := s.qp r.1
  s.setQp r.1 { q with cmds := q.cmds.filter fun c => c.id ≠ r.2 }

/-- The first feed of a job has started. -/
def Job.started (j : Job) : Bool := j.running || !j.passes.isEmpty

/-- A SERVE_SUBMIT or a TUNE_FEED of a queue pair that has been taken and put aside. -/
def Held.work (h : Held) (n : Nat) : Bool := h.qp = n && (h.opcode = 0x30 || h.opcode = 0x39)

/-- Ends the work of a queue pair that has been put aside (R425). -/
def State.endHeld (s : State) (n : Nat) (complete : Bool) : State :=
  let gone := s.host.held.filter (·.work n)
  gone.foldl (fun s h =>
    if h.opcode = 0x30 then (s.countCancelled n).post (n, h.id) ⟨0, 0, 0, false, false, true⟩
    else if complete then s.post (n, h.id) ⟨0, 0, 0, false, false, true⟩ else s.release (n, h.id))
    { s with host := { s.host with held := s.host.held.filter fun h => !h.work n } }

/-- Ends the work of a queue pair's session: requests end as SERVE_CANCEL gives, feeds that have not started are
discarded, with a completion when CLOSE_SESSION closes the session. -/
def State.endWork (s : State) (n : Nat) (complete : Bool) : State :=
  let s := s.endHeld n complete
  let s := s.requests.foldl (fun s r => if r.cmd.1 = n && !r.cancel then s.cancelRequest r none else s) s
  s.jobs.foldl (fun s x =>
    match s.job x.1 with
    | none => s
    | some j =>
      let keep := if j.started then j.feeds.take 1 else []
      let rest := if j.started then j.feeds.drop 1 else j.feeds
      let gone := rest.filter fun f => f.cmd.1 = n
      let s := s.setJob x.1 { j with feeds := keep ++ rest.filter fun f => f.cmd.1 ≠ n }
      gone.foldl (fun s f => if complete then s.post f.cmd ⟨0, 0, 0, false, false, true⟩ else s.release f.cmd) s) s

/-- CLOSE_SESSION (R425): its completion is posted after every other one of the session. -/
def doCloseSession : Start := fun k s =>
  let live := s.requests.filter fun r => r.cmd.1 = k.qp && !r.cancel
  let now := live.filter fun r => !s.inStep r
  let aside := s.host.held.filter fun h => h.qp = k.qp && h.opcode = 0x30
  (s.endWork k.qp true).finish k.ref 0 (now.length + aside.length)
def execCloseSession (c : HostCmd) (s : State) : Res := s.command c 0x04 doCloseSession

/-- The session of a queue pair ends under R425 without a CLOSE_SESSION (R444, R468). -/
def State.endSession (s : State) (n : Nat) : State :=
  let q := s.qp n
  if q.st = .opening then s
  else if q.st = .active || q.st = .expired then
    ((s.setQp n { q with closeTaken := true }).endWork n false).settleClose n
  else s

/-- Drops what a queue pair has put aside. -/
def State.dropHeld (s : State) (n : Nat) : State :=
  { s with host := { s.host with held := s.host.held.filter fun h => h.qp ≠ n } }

/-- QP_DISABLE (R416): a write to QCFG with EN = 0. -/
def State.disableQp (s : State) (n : Nat) : State :=
  let s := s.setQp n { s.qp n with st := .closing, en := false }
  (s.endWork n false).dropHeld n
def execQpDisable (qp value : Nat) (s : State) : Res :=
  let q := s.qp qp
  guarded (s.hostReach && qp < 1024 && !bit value 0) s
    (if q.en then (s.setQp qp (q.writeCfg value)).disableQp qp
     else s.setQp qp { q.writeCfg value with enHeld := false })

/-- SESSION_EXPIRY (R424). -/
def execSessionExpiry (qp : Nat) (s : State) : Res :=
  guarded ((s.qp qp).st = .active) s (s.setQp qp { s.qp qp with st := .expired })

end Sys2Proof.Machine
end

