-- ==== Sys2Proof/Machine/Ring.lean ====
section
/-! DEFINITION. Ring.lean: keys, nonces and frames of a Carousel ring, ownership of blocks, the ring status
record, and leaving (ch. Carousel R330-R339, R355). -/

namespace Sys2Proof.Machine

/-! ### Ownership (R171, R339) -/

/-- First block of a share: ⌊k·n/d⌋. -/
def shareStart (n d k : Nat) : Nat := k * n / d
/-- Blocks of a costume with P parameters. -/
def blocksOf (p : Nat) : Nat := ceilDiv p 256
/-- Slot that owns a block among M. -/
def blockSlot (b m k : Nat) : Nat := ((k + 1) * m - 1) / b
/-- Rank of the die that owns block `k` of a module's share of `n` blocks from `first`, over `d` dies. -/
def blockDie (n d k : Nat) : Nat := ((k + 1) * d - 1) / n

def State.jobTables (s : State) (i : Nat) : Bytes := (s.entry i).tables
def State.jobP (s : State) (i : Nat) : Nat := imgP (s.jobTables i)
def State.jobBlocks (s : State) (i : Nat) : Nat := blocksOf (s.jobP i)

/-- Members and slot of a job: one member for a job outside any ring. -/
def Job.slots (j : Job) : Nat × Nat := match j.ring with
  | some r => if r.joining.isSome then (1, 0) else (r.members, r.slot)
  | none => (1, 0)

/-- Blocks that this module owns for a job: first and count. -/
def State.ownShare (s : State) (i : Nat) (j : Job) : Nat × Nat :=
  let b := s.jobBlocks i
  let a := shareStart b j.slots.1 j.slots.2
  (a, shareStart b j.slots.1 (j.slots.2 + 1) - a)

/-- Blocks of the shard of a compute die of the job's stage. -/
def State.dieShare (s : State) (i : Nat) (j : Job) (die : Nat) : Nat × Nat :=
  let o := s.ownShare i j
  let dies := s.stageDies j.stage
  let k := rankOf dies die
  let a := shareStart o.2 dies.length k
  (o.1 + a, shareStart o.2 dies.length (k + 1) - a)

def Job.active (j : Job) : Bool := j.number.isSome

/-- The ring of a job that is a member. -/
def Job.member (j : Job) : Option Ring := j.ring.bind fun r => if r.joining.isSome then none else some r

def State.mapRing (s : State) (i : Nat) (f : Ring → Ring) : State :=
  match s.job i with
  | some j => s.setJob i { j with ring := j.ring.map f }
  | none => s

/-! ### The ring status record (R355) -/

/-- Adds to a counter of the record: 0 ABSENT, 1 LATE_FRAMES, 2 ESCALATIONS, 3 UNDER_ELEMS, 4 OWNED_ELEMS, 5 FROZEN,
6 TAG_FAILS, 7 WRAPS, 8 LOST. -/
def RingStat.add (r : RingStat) (k n : Nat) : RingStat :=
  let old := [r.absent, r.late, r.escal, r.under, r.owned, r.frozen, r.tagFails, r.wraps, r.lost]
  let x := satAdd (if 7 ≤ k then 16 else 32) (nth 0 old k) n
  let b := min k 7
  let r := { r with ovf := r.ovf.set b (nth false r.ovf b || x.2) }
  match k with
  | 0 => { r with absent := x.1 }
  | 1 => { r with late := x.1 }
  | 2 => { r with escal := x.1 }
  | 3 => { r with under := x.1 }
  | 4 => { r with owned := x.1 }
  | 5 => { r with frozen := x.1 }
  | 6 => { r with tagFails := x.1 }
  | 7 => { r with wraps := x.1 }
  | _ => { r with lost := x.1 }
def Ring.add (r : Ring) (k n : Nat) : Ring := { r with stat := r.stat.add k n }
def State.ringAdd (s : State) (i k n : Nat) : State := s.mapRing i fun r => r.add k n

def RingStat.init : RingStat := ⟨0, 0, 0, 0, 0, 0, 0, 0, 0, 0, 0, [false, false, false, false, false, false, false, false]⟩

/-- The 64 bytes of the record. -/
def Ring.record (r : Ring) : Bytes :=
  let t := r.stat
  let ovf := t.ovf.zipIdx.foldl (fun n p => n + b2n p.1 * 2 ^ p.2) 0
  toBytes 4 t.xnum ++ toBytes 2 r.slot ++ toBytes 2 r.members ++ toBytes 4 t.absent ++ toBytes 4 t.late ++ toBytes 4 t.escal ++
    toBytes 4 t.under ++ toBytes 4 t.owned ++ toBytes 4 t.frozen ++ toBytes 4 t.tagFails ++ toBytes 2 t.lost ++ toBytes 2 t.wraps ++
    toBytes 2 t.lastCause ++ zeros 2 ++ toBytes 4 ovf ++ zeros 16

/-! ### Keys, nonces, frames (R330) -/

/-- The sending key of a slot. -/
def sendKey (ring : Nat) (key salt : Bytes) (slot : Nat) : Bytes :=
  Crypto.hkdf key salt (ascii "LGRM" ++ toBytes 8 ring ++ toBytes 2 slot) 32

/-- The nonce of a ring frame, from its header. -/
def ringNonce (b : Bytes) : Bytes :=
  if fType b = 0x11 then fNonce b
  else
    let lap := fType b = 0x14 && bit (fSamples b) 2
    toBytes 4 (fXnum b) ++ toBytes 1 (fType b) ++ toBytes 1 (fAttempt b) ++ toBytes 3 (fBlock b) ++
      toBytes 1 (b2n (fHalf b) + 2 * b2n lap) ++ toBytes 2 (fCseq b)

/-- The type fields of a frame that the sender chooses; `low` is bits [18:0] at 0x1C. -/
structure FrameOut where
  ty : Nat
  block : Nat := 0
  attempt : Nat := 0
  samples : Nat := 0
  low : Nat := 0
  e : Nat := 0
  under : Nat := 0
  xnum : Option Nat := none      -- another exchange than the current one

/-- A member encrypts a frame under its own key and sends it forward on a plane. -/
def State.ringSend (s : State) (i plane : Nat) (f : FrameOut) (body : Bytes) : State :=
  match s.job i with
  | none => s
  | some j =>
    match j.ring with
    | none => s
    | some r =>
      let counted := f.ty ∈ [0x10, 0x12, 0x13, 0x14]
      let key := f.xnum.getD j.exchanges % 2 ^ 32 * 256 + f.ty
      let n := if counted then Table.get 0 r.cseq key else 0
      let d := if f.ty = 0x11 then s.random 12 else (zeros 12, s)
      let head := toBytes 8 f.ty ++ toBytes 8 r.id ++ toBytes 4 (f.xnum.getD j.exchanges) ++ toBytes 3 f.block ++ toBytes 1 f.attempt ++
        toBytes 4 f.samples ++ toBytes 4 (f.low % 2 ^ 19 + r.slot * 2 ^ 19) ++ toBytes 1 f.e ++ toBytes 1 f.under ++ toBytes 2 n ++ d.1
      let k := if f.ty = 0x11 then r.key else sendKey r.id r.key r.salt r.slot
      let x := Crypto.gcmEnc k (ringNonce head) (fAad head) (padTo body 256)
      let s := d.2.mapRing i fun r => if counted then { r with cseq := Table.set 0 r.cseq key (n + 1) } else r
      s.sendForward plane (head ++ x.2 ++ x.1)

/-- The body of a received frame of a ring, if its tag verifies under the key of the slot that SENDER names. -/
def Ring.decrypt (r : Ring) (b : Bytes) : Option Bytes :=
  let open1 (key : Bytes) : Option Bytes := Crypto.gcmDec key (ringNonce b) (fAad b) (fBody b) (fTag b)
  if fType b = 0x11 then open1 r.key
  else
    let slot := fSender b
    let salt := match r.pred, r.pred2 with
      | some p, q => if p.1 = slot then some p.2 else if slot = r.slot then some r.salt else match q with
        | some p => if p.1 = slot then some p.2 else none
        | none => none
      | none, _ => if slot = r.slot then some r.salt else none
    match salt with
    | some x => open1 (sendKey r.id r.key x slot)
    | none => none

/-- A FORM of this member (R334, Table Frame types). -/
def State.sendForm (s : State) (i : Nat) : State :=
  match s.job i with
  | none => s
  | some j =>
    match j.ring with
    | none => s
    | some r =>
      let p := r.pred.getD (0, zeros 32)
      let body := toBytes 8 j.seed ++ toBytes 8 j.exchanges ++ toBytes 4 (s.entry i).gen ++ zeros 12 ++ padTo r.salt 32 ++
        padTo p.2 32 ++ toBytes 2 p.1
      (s.mapRing i fun r => { r with formDue := false, formed := true }).ringSend i 0 { ty := 0x11 } body

/-- A member leaves: LEAVE to its successor, and its membership ends (R336). -/
def State.leaveRing (s : State) (i joinStatus : Nat) : State :=
  match s.job i with
  | none => s
  | some j =>
    match j.ring with
    | none => s
    | some r =>
      let s := match r.joining with
        | some c => s.finish c joinStatus
        | none => s.ringSend i 0 { ty := 0x13 } []
      let s := match r.leaving with
        | some c => s.finish c 0
        | none => s
      (match s.job i with
        | some j => s.setJob i { j with ring := none, ckSlot := if r.joining.isNone then some (r.members, r.slot) else j.ckSlot }
        | none => s).endWraps

end Sys2Proof.Machine
end

