-- ==== Sys2Proof/Machine/Drain.lean ====
section
/-! DEFINITION. Drain.lean: DRAIN and GDRAIN: roots, saved tensors, costume steps, costume gradients and output
(ch. Tile arrays R113-R117; ch. Tile programs R239-R242; ch. Tuning passes R304-R310). -/

namespace Sys2Proof.Machine

/-! ### Operands and checks -/

/-- What a drain works on: descriptors with their origins, and the number of rows. -/
structure DrainOps where
  grad : Bool                    -- a GDRAIN
  gsrc : Bool
  inside : Bool                  -- input-side mode
  mask : Bool                    -- a clip mask is named
  d : Desc
  o : List Int
  sv : Desc
  so : List Int
  md : Desc
  mo : List Int
  gs : Desc
  go : List Int
  rows : Nat

/-- V of R239. -/
def drainRows (gsrc : Bool) (vm1 : Nat) (r : Chain) : Nat :=
  if gsrc then 16 * (vm1 + 1) else if r.rowsSet then 16 * (r.rows + 1) else 16

def State.drainOps (s : State) (grad : Bool) (i : Issue) (f : DrainF) : DrainOps :=
  let c := s.cluster i.cl
  let d := c.desc f.ddesc
  let sv := c.desc f.svdesc
  let md := c.desc f.mdesc
  let gs := c.desc f.gsdesc
  let gsrc := grad && f.gsrc
  let inside := grad && f.gmode = 1
  { grad := grad, gsrc := gsrc, inside := inside, mask := inside && f.men
    d := d, o := originOf c f.dreg d.rank, sv := sv, so := originOf c f.svreg sv.rank
    md := md, mo := originOf c f.mreg md.rank, gs := gs, go := originOf c f.gsreg gs.rank
    rows := drainRows gsrc f.vm1 ((c.arr f.array).chain f.chain) }

/-- Extents of the block of `v` rows of 128 columns in a tensor of a rank. -/
def tileExt (v rank : Nat) : List Nat := 128 :: v :: List.replicate (rank - 2) 1

/-- A costume quantizer reads the group table (R239). -/
def QRec.reads (q : QRec) : Bool := q.cSin || q.cAlpha

/-- The quantizer record a drain names. -/
def State.drainQ (s : State) (i : Issue) (f : DrainF) : QRec := s.qrec ((s.cluster i.cl).sreg f.qreg).toNat

/-- The first nonzero status. -/
def firstStatus : List Nat → Nat
  | [] => 0
  | x :: r => if x ≠ 0 then x else firstStatus r

/-- A mask position reads as 0 outside the descriptor's sizes; no header is read (R241). -/
def State.maskCode (s : State) (md : Desc) (i : List Int) : Nat :=
  if md.inb i then
    let p := elemPos tyT2 (nth 0 i 1 % 16).toNat (nth 0 i 0 % 16).toNat
    bits (s.readByte (md.brickAddr (md.offset i) + p.1)).toNat p.2 2
  else 0

/-- A poisoned line lies under a block that is read. -/
def State.blockStatus (s : State) (d : Desc) (o : List Int) (ext : List Nat) : Nat :=
  firstStatus ((positions ext).map fun t => (s.cell d (plus o t)).st)

/-- Status of the mask block. -/
def State.maskStatus (s : State) (p : DrainOps) : Nat :=
  firstStatus ((positions (tileExt p.rows p.md.rank)).map fun t =>
    let i := plus p.mo t
    if p.md.inb i && s.poisoned (p.md.brickAddr (p.md.offset i) + (elemPos tyT2 (nth 0 i 1 % 16).toNat (nth 0 i 0 % 16).toNat).1) 1
    then 0x0702 else 0)

/-- Checks of a drain before it writes anything: a status, 0 when they pass (R141, R191, R230, R231, R240, R241). -/
def State.drainCheck (s : State) (i : Issue) (f : DrainF) (p : DrainOps) : Nat :=
  let a := (s.cluster i.cl).arr f.array
  let r := a.chain f.chain
  let q := s.drainQ i f
  let pair := !p.gsrc && r.st = 1 && r.pair
  let bad (c : Bool) (n : Nat) : Nat := if c then n else 0
  firstStatus [
    s.validate i.cl .drain true false p.d,
    if f.sven then s.validate i.cl .drain (!p.grad) false p.sv else 0,
    if p.mask then s.validate i.cl .drain false true p.md else 0,
    if p.gsrc then s.validate i.cl .drain false false p.gs else 0,
    bad (groupPast f.dreg p.d.rank || (f.sven && groupPast f.svreg p.sv.rank) || (p.mask && groupPast f.mreg p.md.rank) ||
      (p.gsrc && groupPast f.gsreg p.gs.rank)) 0x0103,
    bad (p.mask && !(p.md.ty = tyT2 && p.md.brick)) 0x0104,
    if pair then
      bad (p.grad || p.d.brick || p.d.ty ≠ tyF32 || p.d.rank < 3 || p.d.sizeOf 0 ≠ 2 || f.cen || f.qen || f.sven) 0x0104
    else bad (p.d.brick != f.qen) 0x0104,
    bad (p.d.ty = tyF64 || (!p.grad && f.sven && (p.sv.ty = tyF64 || p.sv.brick))) 0x0104,
    bad ((p.d.brick && !aligned16 p.o) || (f.sven && p.sv.brick && !aligned16 p.so) || (p.gsrc && p.gs.brick && !aligned16 p.go) ||
      (p.mask && !aligned16 p.mo)) 0x0101,
    if f.qen then s.qcheck q p.d else 0,
    bad (f.oen && a.owned f.oslot) 0x0202,
    bad (!p.gsrc && !(r.st = 1 || r.st = 2)) 0x0203 ]

/-! ### The root (R87, R141) -/

/-- The root of a chain at a row and column, as a pair. -/
def State.rootOf (s : State) (i : Issue) (f : DrainF) (r : Chain) (row n : Nat) : Pair :=
  let raw := s.closeTree i.cl f.array f.chain r row n
  let x := if r.corr then node r.pair raw (s.closeTree i.cl f.array r.corrBase r row n) else raw
  if f.oen then node r.pair x (word32 (s.readLE (slotWord i.cl f.array f.oslot row n) 4), 0) else x

/-- Normalization of a pair (R141). -/
def normalize (p : Pair) : Nat × Nat :=
  let h := Fp.acc p.1.toNat p.2.toNat
  (h, Fp.accSub p.2.toNat (Fp.accSub h p.1.toNat))

/-- The value g of a GSRC element, with the element of OSLOT (R241, R242). -/
def State.gsrcOf (s : State) (i : Issue) (f : DrainF) (p : DrainOps) (row n : Nat) : Nat :=
  let g := ((s.cell p.gs (plus p.go (n :: row :: List.replicate (p.gs.rank - 2) 0))).f32 p.gs 0).1
  if f.oen then Fp.acc g (s.readLE (slotWord i.cl f.array f.oslot row n) 4) else g

/-- Roots of a tile, row by row. -/
def State.roots (s : State) (i : Issue) (f : DrainF) (p : DrainOps) : List (List Nat) :=
  let r := ((s.cluster i.cl).arr f.array).chain f.chain
  (List.range p.rows).map fun row => (List.range 128).map fun n =>
    if p.gsrc then s.gsrcOf i f p row n else (s.rootOf i f r row n).1.toNat

def at2 (m : List (List Nat)) (row n : Nat) : Nat := nth 0 (nth [] m row) n

/-! ### Writing -/

/-- Writes a block of unbricked elements, F32 codes encoded under R54. Dropped positions are counted. -/
def State.putBlock (s : State) (die agent : Nat) (d : Desc) (o : List Int) (ext : List Nat) (x : List Nat → Nat) : State :=
  let w := (positions ext).foldl (fun (p : State × Nat) t =>
    let r := p.1.putElem d (plus o t) (encodePlain d.ty d.ovf false 0 (x t)).1
    (r.1, p.2 + r.2)) (s, 0)
  (w.1.clearRows d o ext).addDrops die agent w.2

/-! ### Costume steps (R113, R114, R242, R259) -/

/-- Effective operator index (R239). -/
def Cluster.opIndex (c : Cluster) (f : DrainF) : Nat := (f.opidx + (c.sreg f.opreg).toNat % 4096) % 4096

/-- What a drain applies to the root of a row and column. -/
structure DrainEnv where
  cen : Bool
  op : Nat
  chan : Int                     -- o of R259: index of column 0
  groups : List Grp
  stage : Nat                    -- the stage of the die
  table : Nat                    -- address of its first group's entry

/-- The group of a row, and whether the row is a padding row. -/
def DrainEnv.grp (v : DrainEnv) (row : Nat) : Grp := nth Grp.whole v.groups (row / 16)
def DrainEnv.pads (v : DrainEnv) (row : Nat) : Bool := (v.grp row).valid ≤ row % 16
def DrainEnv.index (v : DrainEnv) (n : Nat) : Nat := (v.chan + n).toNat

/-- The group table a drain reads, if it reads one (R239). -/
def State.drainEnv (s : State) (i : Issue) (f : DrainF) (p : DrainOps) : DrainEnv :=
  let c := s.cluster i.cl
  let reads := f.cen || (f.qen && (s.drainQ i f).reads)
  { cen := f.cen, op := c.opIndex f, chan := if f.sven then nth 0 p.so 0 else nth 0 p.o 0
    groups := (List.range (p.rows / 16)).map fun k =>
      if reads then s.grp ((c.sreg f.greg).toNat + 64 * k) else Grp.whole
    stage := s.stageOfDie (i.cl / 16), table := (c.sreg f.greg).toNat }

/-- Step 3 of a DRAIN (R113, R114). -/
def State.costumeOut (s : State) (v : DrainEnv) (row n x : Nat) : Nat :=
  if v.cen then
    match s.sOut (v.grp row).image v.op (v.index n), s.bias (v.grp row).image v.op (v.index n) with
    | none, none => x
    | k, b => Fp.accFma (k.getD 0x3F800000) x (b.getD 0)
  else x

/-- Steps 2 to 4 of a GDRAIN on one element (R242, R80); `m` is its mask code. -/
def State.gradientOut (s : State) (v : DrainEnv) (inside : Bool) (m row n g : Nat) : Nat :=
  let g := if m ≠ 0 then 0 else g
  let k := if !v.cen then none
    else if inside then s.sIn (v.grp row).image v.op (v.index n) else s.sOut (v.grp row).image v.op (v.index n)
  match k with
  | some k => Fp.accMul g k
  | none => g

/-! ### Costume gradients (R81, R304-R310) -/

/-- A balanced pairwise tree over 2^k values (R81, R304). -/
def pairTree : Nat → List Nat → Nat
  | 0, l => l.headD 0
  | k + 1, l => Fp.acc (pairTree k (l.take (2 ^ k))) (pairTree k (l.drop (2 ^ k)))

/-- Adds a contribution to a buffer word and sets NONFINITE where it or the sum is not finite (R305, R306). -/
def State.addGrad (s : State) (gbuf a x : Nat) : State :=
  let y := Fp.acc (s.readLE a 4) x
  let s := s.writeAside 64 a (toBytes 4 y)
  if Fp.isFinite .f32 x && Fp.isFinite .f32 y then s else s.writeAside 64 (gbuf - 64) (toBytes 4 1)

/-- Number of thresholds that a costume owns below a quantizer index. -/
def State.ownedBelow (s : State) (img q : Nat) : Nat := (List.range q).countP fun k => (s.alphaIdx img k).isSome

/-- Contributions of one group of a GDRAIN with CEN (R304, R305). `g` is the root, `m` the mask code and `a` the
saved value of each row of the group and column. -/
def State.addGroup (s : State) (v : DrainEnv) (f : DrainF) (p : DrainOps) (k : Nat) (g m a : Nat → Nat → Nat) : State :=
  let e := nth Grp.whole v.groups k
  let img := e.image
  let row : Nat → (Nat → Nat) → Nat → Nat := fun r h _ => if r < e.valid then h r else 0
  let t16 : (Nat → Nat) → Nat := fun h => pairTree 4 ((List.range 16).map fun r => row r h 0)
  let add : State → Option Nat → Nat → State := fun s q x =>
    match q with
    | some q => s.addGrad e.gbuf (e.gbuf + 4 * q) x
    | none => s
  if p.inside then
    let s := match s.alphaIdx img v.op with
      | some _ =>
        if p.mask then
          let terms := (List.range 2048).map fun j =>
            let c := m (j / 128) (j % 128)
            Fp.accMul (if c = 1 then 0x3F800000 else if c = 3 then 0xBF800000 else 0) (g (j / 128) (j % 128))
          let w := (v.chan / 128 % 64).toNat
          s.addGrad e.gbuf (e.gbuf + 4 * s.readLE (img + 8) 4 + 256 * s.ownedBelow img v.op + 4 * w) (pairTree 11 terms)
        else s
      | none => s
    if f.sven then
      (List.range 128).foldl (fun s n => match s.sInIdx img v.op (v.index n) with
        | some q => add s (some q) (t16 fun r => Fp.accMul (if m r n ≠ 0 then 0 else g r n) (a r n))
        | none => s) s
    else s
  else
    let s := if f.sven then
        (List.range 128).foldl (fun s n => match s.sOutIdx img v.op (v.index n) with
          | some q => add s (some q) (t16 fun r => Fp.accMul (g r n) (a r n))
          | none => s) s
      else s
    (List.range 128).foldl (fun s n => match s.biasIdx img v.op (v.index n) with
      | some q => add s (some q) (t16 fun r => g r n)
      | none => s) s

/-- The additions of a GDRAIN for one group have landed: the module counts them for the pass that runs (R343). -/
def State.countLanded (s : State) (v : DrainEnv) (inside : Bool) (k : Nat) : State :=
  match (s.stage v.stage).step with
  | none => s
  | some t =>
    match t.pass.bind fun i => (s.job i).map fun j => (i, j) with
    | some (i, j) =>
      let x := (inside, v.op, (v.chan / 128).toNat, (v.table + 64 * k - t.table) / 64)
      if v.table + 64 * k < t.table || j.landed.contains x then s else s.setJob i { j with landed := x :: j.landed }
    | none => s

/-- Costume gradients of a whole GDRAIN, in ascending group order (R305, R306, R310). -/
def State.addGradients (s : State) (v : DrainEnv) (f : DrainF) (p : DrainOps) (roots masks saved : List (List Nat)) : State :=
  (List.range v.groups.length).foldl (fun s k =>
    let e := nth Grp.whole v.groups k
    if e.tune && e.image ≠ 0 then
      let off : List (List Nat) → Nat → Nat → Nat := fun l r n => at2 l (16 * k + r) n
      let s := if (List.range 16).any fun r => r < e.valid &&
            (List.range 128).any fun n => !Fp.isFinite .f32 (off roots r n) then
          s.writeAside 64 (e.gbuf - 64) (toBytes 4 1) else s
      if v.cen && e.valid ≠ 0 then (s.addGroup v f p k (off roots) (off masks) (off saved)).countLanded v p.inside k else s
    else s) s

/-! ### The drains -/

/-- A drain joins its unit with a status; no chain is involved in a GDRAIN with GSRC (R220). -/
def State.drainEntry (s : State) (op : Nat) (i : Issue) (f : DrainF) (st : Nat) (par : Bool) : State :=
  s.push i.cl (4 + f.array)
    { s.entryFor i op false (if op = 0x21 && f.gsrc then 0 else f.chain) with status := st, parity := par }

/-- Output of a tile of values: through the quantizer, or as unbricked elements. -/
def State.drainOutput (s : State) (i : Issue) (f : DrainF) (p : DrainOps) (v : DrainEnv) (x : List (List Nat)) : State :=
  let ext := tileExt p.rows p.d.rank
  let g := s.stageOfDie (i.cl / 16)
  let s :=
    if f.qen then
      let k := s.noiseKeys g
      let env : QEnv := { q := s.drainQ i f, seed := k.1, n := k.2, chan := v.chan - nth 0 p.o 0
                          grp := fun r => v.grp (r - nth 0 p.o 1).toNat, ue := 64 }
      let w := s.quantBlock env p.d p.o ext fun t => some (at2 x (nth 0 t 1) (nth 0 t 0))
      w.1.addDrops (i.cl / 16) 2 w.2
    else s.putBlock (i.cl / 16) 2 p.d p.o ext fun t => at2 x (nth 0 t 1) (nth 0 t 0)
  s.pipeBlock g p.d p.o ext

/-- Output of a pair chain (R141). -/
def State.pairOutput (s : State) (i : Issue) (f : DrainF) (p : DrainOps) : State :=
  let r := ((s.cluster i.cl).arr f.array).chain f.chain
  let ext := 2 :: 128 :: p.rows :: List.replicate (p.d.rank - 3) 1
  let vals := (List.range p.rows).map fun row => (List.range 128).map fun n => normalize (s.rootOf i f r row n)
  let s := s.putBlock (i.cl / 16) 2 p.d p.o ext fun t =>
    let v := nth (0, 0) (nth [] vals (nth 0 t 2)) (nth 0 t 1)
    if nth 0 t 0 = 0 then v.1 else v.2
  s.pipeBlock (s.stageOfDie (i.cl / 16)) p.d p.o ext

/-- A slot row of the drained chain is poisoned. -/
def State.drainPoisoned (s : State) (i : Issue) (f : DrainF) (p : DrainOps) : Bool :=
  let r := ((s.cluster i.cl).arr f.array).chain f.chain
  !p.gsrc && r.rowsSet && (List.range p.rows).any fun row => s.slotPoisoned i.cl f.array r f.chain 8 row

/-- A row of the slot of the outlier sums, which belongs to no chain, is poisoned (R241, R472). -/
def State.osumPoisoned (s : State) (i : Issue) (f : DrainF) (p : DrainOps) : Bool :=
  f.oen && (List.range p.rows).any fun row => s.poisoned (slotWord i.cl f.array f.oslot row 0) 0x200

/-- The chain a drain has read becomes FREE, its record 0 (R146, R147, log 70). -/
def State.drained (s : State) (i : Issue) (f : DrainF) (p : DrainOps) : State :=
  if p.gsrc then s
  else
    let c := s.cluster i.cl
    s.setCluster i.cl (c.setArr f.array ((c.arr f.array).setChain f.chain Chain.free))

/-- A poisoned line lies under a group-table entry or a costume vector element that the drain reads (R472). -/
def State.costumePoisoned (s : State) (i : Issue) (f : DrainF) (p : DrainOps) : Bool :=
  let v := s.drainEnv i f p
  let g := ((s.cluster i.cl).sreg f.greg).toNat
  !s.poison.isEmpty && v.groups.zipIdx.any fun e =>
    (e.1.handle ≠ 0xFFFFFFFF || e.1.image ≠ 0) && s.poisoned (g + 64 * e.2) 64 ||
    (f.cen && (List.range 128).any fun n =>
      [s.sOutIdx e.1.image v.op (v.index n), s.biasIdx e.1.image v.op (v.index n), s.sInIdx e.1.image v.op (v.index n)].zipIdx.any
        fun x => (x.2 = 2) = p.inside && match x.1 with
          | some q => s.poisoned (s.paramAddr e.1.image q) (s.paramSize e.1.image)
          | none => false)

/-- Statuses of the blocks a drain reads besides the chain. -/
def State.drainReads (s : State) (i : Issue) (f : DrainF) (p : DrainOps) : Nat :=
  firstStatus [
    if p.gsrc then s.blockStatus p.gs p.go (tileExt p.rows p.gs.rank) else 0,
    if p.grad && f.cen && f.sven then s.blockStatus p.sv p.so (tileExt p.rows p.sv.rank) else 0,
    if p.mask then s.maskStatus p else 0,
    if s.osumPoisoned i f p || s.costumePoisoned i f p then 0x0702 else 0 ]

/-- Work of a drain whose checks have passed. -/
def State.drainWork (s : State) (i : Issue) (f : DrainF) (p : DrainOps) : State :=
  let r := ((s.cluster i.cl).arr f.array).chain f.chain
  if !p.gsrc && r.pair then s.pairOutput i f p
  else
    let roots := s.roots i f p
    let v := s.drainEnv i f p
    if !p.grad then
      let s := if f.sven then
          let ext := tileExt p.rows p.sv.rank
          (s.putBlock (i.cl / 16) 2 p.sv p.so ext fun t => at2 roots (nth 0 t 1) (nth 0 t 0)).pipeBlock
            (s.stageOfDie (i.cl / 16)) p.sv p.so ext
        else s
      s.drainOutput i f p v (roots.zipIdx.map fun x => x.1.zipIdx.map fun y =>
        if v.pads x.2 then 0 else s.costumeOut v x.2 y.2 y.1)
    else
      let tile : Nat → (List Int → Nat) → List Int → List (List Nat) := fun rank h o =>
        (List.range p.rows).map fun row => (List.range 128).map fun n =>
          h (plus o (n :: row :: List.replicate (rank - 2) 0))
      let masks := if p.mask then tile p.md.rank (s.maskCode p.md) p.mo else []
      let saved := if f.cen && f.sven then tile p.sv.rank (fun j => ((s.cell p.sv j).f32 p.sv 0).1) p.so else []
      let out := roots.zipIdx.map fun x => x.1.zipIdx.map fun y =>
        if v.pads x.2 then 0 else s.gradientOut v p.inside (at2 masks x.2 y.2) x.2 y.2 y.1
      (s.addGradients v f p roots masks saved).drainOutput i f p v out

/-- DRAIN or GDRAIN at issue. A drain that fails its checks or its reads writes nothing and keeps its chain; a
drain of a POISONED chain releases it. A parity error in a slot poisons the chain (R146). -/
def State.drainIssue (s : State) (op : Nat) (grad : Bool) (i : Issue) (f : DrainF) : State :=
  let p := s.drainOps grad i f
  let st := s.drainCheck i f p
  let r := ((s.cluster i.cl).arr f.array).chain f.chain
  if st ≠ 0 then (s.descFault i.cl 2 st).drainEntry op i f st (st = 0x0702)
  else if !p.gsrc && s.poisoned (chainAddr i.cl f.array f.chain) 8 then s.drainEntry op i f 0x0702 true
  else if !p.gsrc && r.st = 2 then (s.drained i f p).drainEntry op i f 0x0206 (r.cause = 0x0702)
  else
    let rd := s.drainReads i f p
    if s.drainPoisoned i f p then
      ((s.poisonChain i.cl f.array f.chain 0x0702).drained i f p).drainEntry op i f 0x0206 true
    else if rd ≠ 0 then (s.descFault i.cl 2 rd).drainEntry op i f rd (rd = 0x0702)
    else ((s.drainWork i f p).drained i f p).drainEntry op i f 0 false

/-- No VEC instruction issued earlier that writes the slot of the outlier sums is still to complete (R241). -/
def State.oslotWritten (s : State) (i : Issue) (f : DrainF) : Bool :=
  !f.oen || !((s.cluster i.cl).vec.any fun e => e.slots.contains (slotId i.cl f.array f.oslot))

/-- The quantizer record of a drain that quantizes. -/
def State.drainRec (s : State) (i : Issue) (f : DrainF) : List Nat :=
  if f.qen then [((s.cluster i.cl).sreg f.qreg).toNat] else []

/-- DRAIN or GDRAIN issues and joins its unit. -/
def State.drainRun (s : State) (op : Nat) (grad : Bool) (i : Issue) (f : DrainF) : State :=
  let p := s.drainOps grad i f
  s.marked i.cl (4 + f.array) (s.drainRec i f) [p.d, p.sv] ((if p.gsrc then [p.gs] else []) ++ if p.mask then [p.md] else []) (s.racing i.cl (4 + f.array) fun s => s.drainIssue op grad i f)

def execDrain (i : Issue) (f : DrainF) (s : State) : Res :=
  guarded (s.canIssue i.cl (TileWord.drain 0x20 i f) && s.room i.cl (4 + f.array) && s.quiet i.cl f.array [f.chain] &&
    s.oslotWritten i f) s (s.drainRun 0x20 false i f)
def execGdrain (i : Issue) (f : DrainF) (s : State) : Res :=
  guarded (s.canIssue i.cl (TileWord.drain 0x21 i f) && s.room i.cl (4 + f.array) &&
    (f.gsrc || s.quiet i.cl f.array [f.chain]) && s.oslotWritten i f && s.forwardOver i.cl) s (s.drainRun 0x21 true i f)

end Sys2Proof.Machine
end

