-- ==== Sys2Proof/Machine/Vec.lean ====
section
/-! DEFINITION. Vec.lean: the vector engine: register functions, the special-function unit, memory forms, row
reductions, the activation catalog and outlier sums (ch. Vector engines; ch. Tile programs R243-R245). -/

namespace Sys2Proof.Machine

/-! ### Registers and masks (R148, R149) -/

def Cluster.v32 (c : Cluster) (r lane : Nat) : Nat := (Table.get 0 c.v (256 * r + lane)).toNat
def Cluster.v64 (c : Cluster) (r j : Nat) : Nat := c.v32 r (2 * j) + 2 ^ 32 * c.v32 r (2 * j + 1)
def Cluster.vreg (c : Cluster) (wide : Bool) (r j : Nat) : Nat := if wide then c.v64 r j else c.v32 r j

def Cluster.putLane (c : Cluster) (r lane x : Nat) : Cluster :=
  { c with v := Table.set 0 c.v (256 * r + lane) (word32 x) }
def Cluster.putReg (c : Cluster) (wide : Bool) (r j x : Nat) : Cluster :=
  if wide then (c.putLane r (2 * j) (x % 2 ^ 32)).putLane r (2 * j + 1) (x / 2 ^ 32) else c.putLane r j x

/-- Element `j` of a mask register; an F64 element needs both of its bits. -/
def Cluster.maskBit (c : Cluster) (wide : Bool) (k j : Nat) : Bool :=
  let m := Table.get 0 c.m k
  if wide then m.getLsbD (2 * j) && m.getLsbD (2 * j + 1) else m.getLsbD j

/-- An instruction writes element `j`. -/
def Cluster.active (c : Cluster) (f : VecF) (wide : Bool) (j : Nat) : Bool := !f.men || c.maskBit wide f.mask j

/-- Second source: register VB, or a scalar register broadcast. -/
def Cluster.opB (c : Cluster) (f : VecF) (wide : Bool) (j : Nat) : Nat :=
  if f.bscal then (c.sreg f.vb).toNat % (if wide then 2 ^ 64 else 2 ^ 32) else c.vreg wide f.vb j

/-- Elements of a full register. -/
def lanes (wide : Bool) : List Nat := List.range (if wide then 128 else 256)

def Fp.of (wide : Bool) : Fmt := if wide then .f64 else .f32

/-! ### Completion -/

/-- A VEC instruction that has begun joins the engine's queue with its status, the flags that its completion sets (R154),
and the accumulator slots it has written and read. -/
def State.vecEntry (s : State) (i : Issue) (st flags : Nat) (slots : List Nat := []) (rslots : List Nat := []) : State :=
  s.push i.cl 7
    { s.entryFor i 0x28 false 0 with status := st, parity := st = 0x0702, flags := flags, slots := slots, rslots := rslots }

/-- A VEC instruction issues when the engine's queue has room. -/
def State.vecReady (s : State) (fn : Nat) (i : Issue) (f : VecF) : Bool :=
  s.canIssue i.cl (TileWord.vec fn i f) && s.room i.cl 7

/-! ### Register functions (Table Vector functions) -/

/-- A function of the three sources, element by element: VD takes the active results. -/
def State.vecMap (s : State) (i : Issue) (f : VecF) (wide : Bool) (op : Fmt → Nat → Nat → Nat → Nat → Nat × Nat) : State :=
  let c := s.cluster i.cl
  let r := (lanes wide).foldl (fun (p : Cluster × Nat) j =>
    if c.active f wide j then
      let x := op (Fp.of wide) c.rm (c.vreg wide f.va j) (c.opB f wide j) (c.vreg wide f.vc j)
      (p.1.putReg wide f.vd j x.1, p.2 ||| x.2)
    else p) (c, 0)
  (s.setCluster i.cl r.1).vecEntry i 0 r.2


/-- NV of a comparison: a signalling one raises it for any NaN, a quiet one for a signalling NaN. -/
def cmpFlags (m : Fmt) (quiet : Bool) (a b : Nat) : Nat :=
  if Fp.snan m a || Fp.snan m b || (!quiet && (Fp.isNan m a || Fp.isNan m b)) then flagNV else 0

/-- A comparison: the mask register VD mod 8 takes the active results; an F64 result goes into both bits. -/
def State.vecCmp (s : State) (i : Issue) (f : VecF) (quiet : Bool) (op : Fmt → Nat → Nat → Bool) : State :=
  let c := s.cluster i.cl
  let k := f.vd % 8
  let old := Table.get 0 c.m k
  let w := if f.prec then 2 else 1
  let n := (lanes f.prec).foldl (fun (p : Nat × Nat) j =>
    if c.active f f.prec j then
      let a := c.vreg f.prec f.va j
      let b := c.opB f f.prec j
      (setBits p.1 (w * j) w (if op (Fp.of f.prec) a b then 2 ^ w - 1 else 0), p.2 ||| cmpFlags (Fp.of f.prec) quiet a b)
    else p) (old.toNat, 0)
  (s.setCluster i.cl { c with m := Table.set 0 c.m k (BitVec.ofNat 256 n.1) }).vecEntry i 0 n.2


/-- SEL: VD := m(VC mod 8) ? VA : VB. -/
def State.vecSel (s : State) (i : Issue) (f : VecF) : State :=
  let c := s.cluster i.cl
  let c' := (lanes f.prec).foldl (fun (p : Cluster) j =>
    if c.active f f.prec j then
      p.putReg f.prec f.vd j (if c.maskBit f.prec (f.vc % 8) j then c.vreg f.prec f.va j else c.opB f f.prec j)
    else p) c
  (s.setCluster i.cl c').vecEntry i 0 0

/-- CVTD: F64 of the F32 lanes 0 to 127 of VA, exactly; a NaN keeps its payload and becomes quiet (R54, log 71). -/
def State.vecCvtd (s : State) (i : Issue) (f : VecF) : State :=
  let c := s.cluster i.cl
  let r := (lanes true).foldl (fun (p : Cluster × Nat) j =>
    if c.active f true j then
      let a := c.v32 f.va j
      (p.1.putReg true f.vd j (Fp.quiet .f64 (Fp.widen a)), p.2 ||| if Fp.snan .f32 a then flagNV else 0)
    else p) (c, 0)
  (s.setCluster i.cl r.1).vecEntry i 0 r.2

/-- CVTS: lanes 0 to 127 take F32 of the F64 elements of VA under RM, lanes 128 to 255 take +0. -/
def State.vecCvts (s : State) (i : Issue) (f : VecF) : State :=
  let c := s.cluster i.cl
  let r := (lanes false).foldl (fun (p : Cluster × Nat) j =>
    if c.active f false j then
      let x := if j < 128 then Fp.conv .f64 .f32 c.rm (c.v64 f.va j) else (0, 0)
      (p.1.putReg false f.vd j x.1, p.2 ||| x.2)
    else p) (c, 0)
  (s.setCluster i.cl r.1).vecEntry i 0 r.2


/-- SETRM: RM of VCSR := bits [1:0] of VA (R153). -/
def State.vecSetrm (s : State) (i : Issue) (f : VecF) : State :=
  (s.setCluster i.cl { s.cluster i.cl with rm := f.va % 4 }).vecEntry i 0 0

/-! ### Memory operands (R150, R231, R243, R533) -/

/-- A memory operand: descriptor, origin, and whether its origin group runs past s31. -/
structure VOp where
  d : Desc
  o : List Int
  past : Bool

def Cluster.vop (c : Cluster) (p : Nat × Nat) : VOp :=
  let d := c.desc p.1
  ⟨d, originOf c p.2 d.rank, groupPast p.2 d.rank⟩

/-- Rows and columns of LREG. -/
def Cluster.shape (c : Cluster) (f : VecF) : Nat × Nat :=
  let n := (c.sreg f.lreg).toNat
  (bits n 32 32, bits n 0 32)

/-- Index vector of a row and column of an operand's block. -/
def VOp.at (p : VOp) (row col : Nat) : List Int := plus p.o (col :: row :: List.replicate (p.d.rank - 2) 0)

/-- Checks of an operand: validation, origin group, and start of a bricked operand; a bricked write by the
catalog starts at whole bricks in both dimensions. -/
def State.vopCheck (s : State) (cl : ClusterId) (write whole : Bool) (p : VOp) : Nat :=
  let st := s.validate cl .vector write false p.d
  if st ≠ 0 then st
  else if p.past then 0x0103
  else if p.d.brick && (nth 0 p.o 0 % 16 ≠ 0 || (whole && nth 0 p.o 1 % 16 ≠ 0)) then 0x0101 else 0

/-- Positions of an operand's block of a shape, row by row. -/
def VOp.block (p : VOp) (rows cols : Nat) : List (List Int) :=
  (positions [cols, rows]).map fun x => p.at (nth 0 x 1) (nth 0 x 0)

/-- An accumulation or a merge is in flight on a slot that an operand's block touches (R144). -/
def State.vopBusy (s : State) (p : VOp) (write : Bool) (rows cols : Nat) : Bool := s.windowBusy p.d write (p.block rows cols)

/-- Accumulator slots that an operand's block touches, as an entry names them. -/
def State.vopSlots (s : State) (p : VOp) (write : Bool) (rows cols : Nat) : List Nat := s.slotIds p.d write (p.block rows cols)

/-- A VEC memory form joins the engine with a failure. -/
def State.vecFail (s : State) (i : Issue) (st : Nat) : State := (s.descFault i.cl 3 st).vecEntry i st 0

/-- Statuses of the positions of a block, in order: the first that is not 0. -/
def State.vopStatus (s : State) (p : VOp) (rows cols : Nat) : Nat :=
  firstStatus ((p.block rows cols).map fun i => (s.cell p.d i).st)

/-- Straddling line pairs of a run of `n` bytes at `a`: every 64 bytes of it that cross a line boundary (R196). -/
def straddles (a n : Nat) : Nat :=
  if a % 64 = 0 then 0 else n / 64 + b2n (decide (64 < a % 64 + n % 64))

/-- Straddling line pairs of the rows of a block in legacy mode, its first `limit` positions in row order (R196). -/
def legacyPairs (d : Desc) (o : List Int) (ext : List Nat) (limit : Nat) : Nat :=
  let w := nth 0 ext 0
  if d.legacy && d.step 0 = d.unit then
    (positions (ext.drop 1)).zipIdx.foldl (fun n t =>
      let lo := (max 0 (-nth 0 o 0)).toNat
      let hi := min (min w (limit - t.2 * w)) ((d.sizeOf 0 : Int) - nth 0 o 0).toNat
      let i := plus o (lo :: t.1)
      if lo < hi && (d.inb i || d.oob) then n + straddles (d.addr (d.clamp i)).toNat ((hi - lo) * d.unit) else n) 0
  else 0

/-- Adds to NARROW_LINES and LEGACY_LINES (R218). -/
def State.addSlow (s : State) (die narrow legacy : Nat) : State :=
  let d := s.die die
  let n := satAdd 32 d.narrow narrow
  let l := satAdd 32 d.legacy legacy
  s.setDie die { d with narrow := n.1, legacy := l.1
                        descOvf := (d.descOvf.set 4 (nth false d.descOvf 4 || l.2)).set 5 (nth false d.descOvf 5 || n.2) }

/-- What reading a block counts: reserved T2 codes, less `masked` of them, and legacy line pairs (R36, R218). -/
def State.vopCount (s : State) (cl : ClusterId) (p : VOp) (rows cols masked : Nat) : State :=
  let ext := cols :: rows :: List.replicate (p.d.rank - 2) 1
  (s.addReserved (cl / 16) (s.blockReserved p.d p.o ext - masked)).addSlow (cl / 16) 0
    (legacyPairs p.d p.o ext (rows * cols))

/-- One element as a load with PREC = 0 reads it: code and flags (R533). -/
def State.vopF32 (s : State) (p : VOp) (rm row col : Nat) : Nat × Nat := (s.cell p.d (p.at row col)).f32 p.d rm

/-! ### LD, ST (R155, R533) -/

/-- The shape of LD, ST and STQ exceeds a register. -/
def shapeBig (wide : Bool) (sh : Nat × Nat) : Bool := (if wide then 128 else 256) < sh.1 * sh.2

/-- Checks of LD before any data moves. -/
def State.ldCheck (s : State) (i : Issue) (f : VecF) : Nat :=
  let c := s.cluster i.cl
  firstStatus [s.vopCheck i.cl false false (c.vop f.opa), if shapeBig f.prec (c.shape f) then 0x0103 else 0]

def State.vecLd (s : State) (i : Issue) (f : VecF) : State :=
  let c := s.cluster i.cl
  let p := c.vop f.opa
  let sh := c.shape f
  let st := s.ldCheck i f
  if st ≠ 0 then s.vecFail i st
  else
    let rd := s.vopStatus p sh.1 sh.2
    if rd ≠ 0 then (s.vopCount i.cl p sh.1 sh.2 0).vecFail i rd
    else
      -- `x.2.2`: reserved codes at positions that are masked off, which R149 leaves uncounted
      let r := (List.range (sh.1 * sh.2)).foldl (fun (x : Cluster × Nat × Nat) j =>
        let cell := s.cell p.d (p.at (j / sh.2) (j % sh.2))
        if c.active f f.prec j then
          let y := if f.prec then (cell.f64 p.d, 0) else cell.f32 p.d c.rm
          (x.1.putReg f.prec f.vd j y.1, x.2.1 ||| y.2, x.2.2)
        else (x.1, x.2.1, x.2.2 + b2n (cell.reserved p.d))) (c, 0, 0)
      ((s.setCluster i.cl r.1).vopCount i.cl p sh.1 sh.2 r.2.2).vecEntry i 0 r.2.1 [] (s.vopSlots p false sh.1 sh.2)

/-- The block of OPA touches a busy slot, for an instruction whose block the shape gives. -/
def State.busyA (s : State) (i : Issue) (f : VecF) (write : Bool) : Bool :=
  let c := s.cluster i.cl
  let sh := c.shape f
  s.vopBusy (c.vop f.opa) write sh.1 sh.2

/-- Checks of ST before any data moves. -/
def State.stCheck (s : State) (i : Issue) (f : VecF) : Nat :=
  let c := s.cluster i.cl
  let p := c.vop f.opa
  firstStatus [s.vopCheck i.cl true false p, if p.d.brick then 0x0104 else 0, if shapeBig f.prec (c.shape f) then 0x0103 else 0]


def State.vecSt (s : State) (i : Issue) (f : VecF) : State :=
  let c := s.cluster i.cl
  let p := c.vop f.opa
  let sh := c.shape f
  let st := s.stCheck i f
  if st ≠ 0 then s.vecFail i st
  else
    let r := (List.range (sh.1 * sh.2)).foldl (fun (x : State × Nat × Nat) j =>
      if c.active f f.prec j then
        let y := encodePlain p.d.ty p.d.ovf f.prec c.rm (c.vreg f.prec f.vd j)
        let w := x.1.putElem p.d (p.at (j / sh.2) (j % sh.2)) y.1
        (w.1, x.2.1 ||| y.2, x.2.2 + w.2)
      else x) (s, 0, 0)
    let s := if f.men then r.1 else r.1.clearRows p.d p.o [sh.2, sh.1]
    (s.addDrops (i.cl / 16) 3 r.2.2).vecEntry i 0 r.2.1 (s.vopSlots p true sh.1 sh.2)


/-! ### STQ (R156, R244) -/

/-- The quantizing environment of a vector or mover write in a cluster's stage (R260, R276). -/
def State.quantEnv (s : State) (cl : ClusterId) (a : Nat) : QEnv :=
  let g := s.stageOfDie (cl / 16)
  let q := s.qrec a
  let k := s.noiseKeys g
  { q := q, seed := k.1, n := k.2, chan := 0, grp := s.tableGrp g q, ue := 64 }

/-- Rows [lo, hi) as a bit mask. -/
def rowMask (lo hi : Nat) : Nat := 2 ^ hi - 2 ^ lo

/-- Random codes for a brick whose values R156 leaves undefined. -/
def State.tearBrick (s : State) (d : Desc) (off : Int) : State :=
  let r := s.random d.unit
  let h := r.2.free
  ((h.2.writeBytes (d.brickAddr off) r.1).writeLE (d.hdrAddr off) 4 (reTag (h.1.toNat) (brickTag (d.brickAddr off))))

/-- One brick of a store through the quantizer: the rows [lo, hi) of the brick at `i0` take the values `x` gives
for a row and column of the brick, joined to the rows that earlier stores have left (R156). -/
def State.stqBrick (s : State) (cl : ClusterId) (v : QEnv) (d : Desc) (ch : List Nat) (i0 : List Int) (lo hi : Nat)
    (x : Nat → Nat → Option Nat) : State :=
  let off := d.offset i0
  let a := d.brickAddr off
  let c := s.cluster cl
  let old := c.asm.find? fun e => e.addr = a
  let fresh : Assembly := ⟨a, 0, false, List.replicate 256 none, 0, 0⟩
  let e := match old with
    | some e => if e.rows &&& rowMask lo hi ≠ 0 then { fresh with torn := e.torn || e.rows ≠ rowMask 0 16 } else e
    | none => fresh
  let xs := e.xs.zipIdx.map fun p => if lo ≤ p.2 / 16 && p.2 / 16 < hi then x (p.2 / 16) (p.2 % 16) else p.1
  let rows := e.rows ||| rowMask lo hi
  let w := s.quantOne v d ch i0 xs (e.clip, e.total)
  let torn := e.torn && rows ≠ rowMask 0 16
  let s := if torn then w.1.tearBrick d off else w.1
  let c := s.cluster cl
  s.setCluster cl { c with asm := ⟨a, rows, torn, xs, w.2.clip, w.2.total⟩ :: c.asm.filter (·.addr ≠ a) }

/-- A store through the quantizer into a bricked destination: brick by brick. -/
def State.stqBlock (s : State) (cl : ClusterId) (v : QEnv) (p : VOp) (rows cols : Nat) (x : Nat → Nat → Option Nat) :
    State × Nat :=
  let ch := if v.q.outEn then s.mapChannels v.q.omap else []
  let r0 := nth 0 p.o 1
  let b0 := r0 / 16
  let nb := ((r0 + rows + 15) / 16 - b0).toNat
  (positions [cols / 16, if rows = 0 then 0 else nb]).foldl (fun (w : State × Nat) (b : List Nat) =>
    let top := 16 * (b0 + nth 0 b 1)
    let i0 : List Int := (nth 0 p.o 0 + 16 * ((nth 0 b 0 : Nat) : Int)) :: top :: p.o.drop 2
    let lo := (max 0 (r0 - top)).toNat
    let hi := (min 16 (r0 + rows - top)).toNat
    if p.d.inBrick i0 then
      (w.1.stqBrick cl v p.d ch i0 lo hi fun r c => x ((top + (r : Int) - r0).toNat) (16 * (nth 0 b 0 : Nat) + c), w.2)
    else (w.1, w.2 + 16 * (hi - lo))) (s.sideHeader v, 0)

/-- Checks of STQ before any data moves. -/
def State.stqCheck (s : State) (i : Issue) (f : VecF) : Nat :=
  let c := s.cluster i.cl
  let p := c.vop f.opa
  let sh := c.shape f
  firstStatus [s.vopCheck i.cl true false p, if shapeBig false sh then 0x0103 else 0,
    if p.d.brick && sh.2 % 16 ≠ 0 then 0x0101 else 0, s.qcheck (s.qrec (c.sreg f.qreg).toNat) p.d]

def State.vecStq (s : State) (i : Issue) (f : VecF) : State :=
  let c := s.cluster i.cl
  let p := c.vop f.opa
  let sh := c.shape f
  let a := (c.sreg f.qreg).toNat
  let st := s.stqCheck i f
  if st ≠ 0 then s.vecFail i st
  else
    let v := s.quantEnv i.cl a
    let x : Nat → Nat → Option Nat := fun r k =>
      let j := r * sh.2 + k
      if c.active f false j then some (c.v32 f.vd j) else none
    let w := if p.d.brick then s.stqBlock i.cl v p sh.1 sh.2 x
      else
        let ch := if v.q.outEn then s.mapChannels v.q.omap else []
        (List.range (sh.1 * sh.2)).foldl (fun (w : State × Nat) j =>
          let r := w.1.quantElem v p.d ch (p.at (j / sh.2) (j % sh.2)) (x (j / sh.2) (j % sh.2))
          (r.1, w.2 + r.2)) (s.sideHeader v, 0)
    (w.1.addDrops (i.cl / 16) 3 w.2).vecEntry i 0 0


/-! ### Row reductions (R158, R159) -/

/-- A value with the exception flags raised so far. -/
abbrev FR := Nat × Nat

def fr (op : Nat → Nat → Nat × Nat) (a b : FR) : FR :=
  let r := op a.1 b.1
  (r.1, a.2 ||| b.2 ||| r.2)
def fr1 (op : Nat → Nat × Nat) (a : FR) : FR :=
  let r := op a.1
  (r.1, a.2 ||| r.2)
def frAdd : FR → FR → FR := fr (Fp.add .f32 0)
def frSub : FR → FR → FR := fr (Fp.sub .f32 0)
def frMul : FR → FR → FR := fr (Fp.mul .f32 0)
def frDiv : FR → FR → FR := fr (Fp.div .f32 0)

/-- Insertion with unbounded depth (R129): level k from the front. -/
def rowInsert : List (Option FR) → FR → List (Option FR)
  | [], v => [some v]
  | none :: t, v => some v :: t
  | some l :: t, v => none :: rowInsert t (frAdd l v)

/-- Closing (R130). -/
def rowClose : List (Option FR) → Option FR → Option FR
  | [], r => r
  | none :: t, r => rowClose t r
  | some l :: t, none => rowClose t (some l)
  | some l :: t, some r => rowClose t (some (frAdd l r))

/-- The sum of a row (R158). -/
def rowSum (l : List FR) : FR := (rowClose (l.foldl rowInsert []) none).getD (0, 0)

/-- The maximum, or minimum, of a row (R159). -/
def rowExt (op : Fmt → Nat → Nat → Nat × Nat) (empty : Nat) (l : List FR) : FR :=
  match l with
  | [] => (empty, 0)
  | x :: r =>
    let y := r.foldl (fr (op .f32)) x
    let nv := if l.any fun a => Fp.snan .f32 a.1 then flagNV else 0
    if Fp.isNan .f32 y.1 then (Fmt.f32.qnan, y.2 ||| nv) else y

def rowMax (l : List FR) : FR := rowExt Fp.maximum (Fmt.f32.inf true) l
def rowMin (l : List FR) : FR := rowExt Fp.minimum (Fmt.f32.inf false) l

/-- A row of an operand's block. -/
def State.vopRow (s : State) (p : VOp) (rm row cols : Nat) : List FR := (List.range cols).map (s.vopF32 p rm row)

/-- Checks of a row reduction before any data moves. -/
def State.rowCheck (s : State) (i : Issue) (f : VecF) : Nat :=
  let c := s.cluster i.cl
  let q := c.vop f.opb
  firstStatus [s.vopCheck i.cl false false (c.vop f.opa), s.vopCheck i.cl true false q, if q.d.brick then 0x0104 else 0]

/-- A row reduction: the result of each row goes to element (row, 0) of OPB. -/
def State.vecRow (s : State) (i : Issue) (f : VecF) (op : List FR → FR) : State :=
  let c := s.cluster i.cl
  let p := c.vop f.opa
  let q := c.vop f.opb
  let sh := c.shape f
  let st := s.rowCheck i f
  if st ≠ 0 then s.vecFail i st
  else
    let rd := s.vopStatus p sh.1 sh.2
    let s := s.vopCount i.cl p sh.1 sh.2 0
    if rd ≠ 0 then s.vecFail i rd
    else
      let rows := (List.range sh.1).map fun r => op (s.vopRow p c.rm r sh.2)
      let flags := rows.foldl (fun a x => a ||| x.2) 0
      (s.putBlock (i.cl / 16) 3 q.d q.o [1, sh.1] fun t => (nth (0, 0) rows (nth 0 t 1)).1).vecEntry i 0 flags
        (s.vopSlots q true sh.1 1) (s.vopSlots p false sh.1 sh.2)

/-- Row forms touch busy slots of their input block or result column. -/
def State.busyRow (s : State) (i : Issue) (f : VecF) : Bool :=
  let c := s.cluster i.cl
  let sh := c.shape f
  s.vopBusy (c.vop f.opa) false sh.1 sh.2 || s.vopBusy (c.vop f.opb) true sh.1 1


/-! ### The activation catalog (R160-R169) -/

def one : FR := (0x3F800000, 0)
/-- L, the F32 value nearest to log2 e (R157). -/
def log2e : FR := (0x3FB8AA3B, 0)

def positive (x : FR) : Bool := Fp.lt .f32 0 x.1

/-- What a catalog function gives for one row: the output, the first and second saved values. -/
structure ActRow where
  out : List FR
  save1 : List FR
  save2 : List FR

/-- A value with the flag that a selection by comparison raises on it: NV for a signalling NaN alone. DEDUCED, log 56. -/
def compared (x : FR) : FR := (x.1, x.2 ||| if Fp.snan .f32 x.1 then flagNV else 0)

/-- The canonical NaN for a NaN input, else the result (R160). -/
def nanOr (x r : FR) : FR := if Fp.isNan .f32 x.1 then (Fmt.f32.qnan, (compared x).2) else r

/-- An elementwise function that saves its output. -/
def saveOut (h : FR → FR) (l : List FR) : ActRow := ⟨l.map h, l.map h, []⟩

/-- An elementwise function that saves its output and a second value. -/
def saveTwo (h g : FR → FR) (l : List FR) : ActRow := ⟨l.map h, l.map h, l.map g⟩

/-- Row softmax (R165). -/
def softmax (l : List FR) : ActRow :=
  let m := rowMax l
  if m.1 = Fmt.f32.inf true then saveOut (fun _ => (0, 0)) l
  else
    let e := l.map fun x => fr1 Sfu.exp2 (frMul (frSub x m) log2e)
    let q := fr1 Sfu.rcp (rowSum e)
    saveOut (fun x => frMul x q) e

/-- N converted to F32, which rounds when N does not fit (R154). -/
def frNat (n : Nat) : FR := Fp.round .f32 0 false n 0 false

/-- RMS normalization (R168). -/
def rmsNorm (eps : FR) (g l : List FR) : ActRow :=
  let ss := rowSum (l.map fun x => frMul x x)
  let r := fr1 Sfu.rsq (frAdd (frDiv ss (frNat l.length)) eps)
  let n := l.map fun x => frMul x r
  ⟨List.zipWith frMul n g, n, [r]⟩

/-- The forward functions of Table Activation catalog on one row. -/
def actForward (cat : Nat) (a : FR) (g l : List FR) : ActRow :=
  match cat with
  | 0 => saveOut (fun x => nanOr x (if positive x then x else (0, x.2))) l
  | 1 => saveOut (fun x => nanOr x (if positive x then x else frMul a x)) l
  | 2 => saveOut (fr1 Sfu.sig) l
  | 3 => saveOut (fr1 Sfu.tanh) l
  | 4 => saveTwo (fun x => frMul x (fr1 Sfu.sig x)) (fr1 Sfu.sig) l
  | 5 => saveTwo (fun x => frMul x (fr1 Sfu.sig (frMul a x))) (fun x => fr1 Sfu.sig (frMul a x)) l
  | 6 => saveOut (fun x => nanOr x (if positive x then frMul x x else (0, x.2))) l
  | 7 => saveOut (fun x => fr1 Sfu.exp2 (frMul x log2e)) l
  | 8 => softmax l
  | _ => rmsNorm a g l

/-- The backward functions on one row: incoming gradient, saved values (`v` the second, or r of the row), gain. -/
def actBackward (cat : Nat) (a : FR) (g dy y v : List FR) : List FR :=
  let both := List.zip dy y
  let three := List.zip dy (List.zip y v)
  match cat with
  | 0 => both.map fun p => (if positive p.2 then p.1.1 else 0, p.1.2 ||| (compared p.2).2)
  | 1 => both.map fun p =>
      let x := if positive p.2 then p.1 else frMul a p.1
      (x.1, x.2 ||| (compared p.2).2)
  | 2 => both.map fun p => frMul p.1 (frMul p.2 (frSub one p.2))
  | 3 => both.map fun p => frMul p.1 (frSub one (frMul p.2 p.2))
  | 4 => three.map fun p => frMul p.1 (frAdd p.2.2 (frMul p.2.1 (frSub one p.2.2)))
  | 5 => three.map fun p => frMul p.1 (frAdd p.2.2 (frMul a (frMul p.2.1 (frSub one p.2.2))))
  | 6 => both.map fun p =>
      let q := fr1 (Fp.sqrt .f32 0) p.2
      frMul p.1 (frAdd q q)
  | 7 => both.map fun p => frMul p.1 p.2
  | 8 =>
    let dot := rowSum (both.map fun p => frMul p.2 p.1)
    both.map fun p => frMul p.2 (frSub p.1 dot)
  | _ =>
    let r := v.headD (0, 0)
    let h := List.zipWith frMul g dy
    let dot := rowSum (List.zipWith frMul h y)
    let c := frDiv dot (frNat dy.length)
    List.zipWith (fun n h => frMul (frSub h (frMul n c)) r) y h

/-- A catalog function saves, and reads back, a second value: one per element, or one per row. -/
def actSecond (cat : Nat) : Bool := cat = 4 || cat = 5 || cat = 9

/-- An instruction that steps through its block writes an element: elements go row-major into the 256 lanes of one step
after another (R149, R243; DESIGN CHOICE, log 79). -/
def Cluster.lane (c : Cluster) (f : VecF) (cols row col : Nat) : Bool := c.active f false ((row * cols + col) % 256)

/-- Writes the elements of a block that `on` names, F32 codes encoded under R54. Dropped positions are counted. -/
def State.putLanes (s : State) (die : Nat) (d : Desc) (o : List Int) (ext : List Nat) (on : List Nat → Bool) (x : List Nat → Nat) :
    State :=
  let w := ((positions ext).filter on).foldl (fun (p : State × Nat) t =>
    let r := p.1.putElem d (plus o t) (encodePlain d.ty d.ovf false 0 (x t)).1
    (r.1, p.2 + r.2)) (s, 0)
  (if (positions ext).all on then w.1.clearRows d o ext else w.1).addDrops die 3 w.2

/-- Writes a catalog output or saved value: through a record when bricked, a masked-off position being excluded (R72),
else element by element. -/
def State.actWrite (s : State) (i : Issue) (f : VecF) (a : Nat) (p : VOp) (rows cols : Nat) (m : List (List FR)) : State :=
  let x : List Nat → Nat := fun t => (nth (0, 0) (nth [] m (nth 0 t 1)) (nth 0 t 0)).1
  let on : List Nat → Bool := fun t => (s.cluster i.cl).lane f cols (nth 0 t 1) (nth 0 t 0)
  if p.d.brick then
    let w := s.quantBlock (s.quantEnv i.cl a) p.d p.o (tileExt rows p.d.rank |>.set 0 cols) fun t => if on t then some (x t) else none
    w.1.addDrops (i.cl / 16) 3 w.2
  else s.putLanes (i.cl / 16) p.d p.o [cols, rows] on x

/-- What reading a block counts, less what masked-off lanes read (R149). -/
def State.vopCountOn (s : State) (i : Issue) (f : VecF) (p : VOp) (rows cols : Nat) : State :=
  let c := s.cluster i.cl
  let off := (List.range (rows * cols)).countP fun j =>
    !c.lane f cols (j / cols) (j % cols) && (s.cell p.d (p.at (j / cols) (j % cols))).reserved p.d
  s.vopCount i.cl p rows cols (if f.men then off else 0)

/-- Checks of a written operand of the catalog (R200, R231, R244). -/
def State.actCheck (s : State) (i : Issue) (a : Nat) (p : VOp) (rows cols : Nat) : Nat :=
  firstStatus [s.vopCheck i.cl true true p, if p.d.brick && (rows % 16 ≠ 0 || cols % 16 ≠ 0) then 0x0101 else 0,
    if p.d.brick then s.qcheck (s.qrec a) p.d else 0]

/-- r of RMS normalization is unbricked F32 (R162); another destination fails with DESC_TYPE before its own validation,
while a saved tensor of a format that R162 does not list is taken as it is. DESIGN CHOICE, log 79. -/
def rowSaveBad (cat : Nat) (p : VOp) : Bool := cat = 9 && (p.d.brick || p.d.ty ≠ tyF32)

/-- The parameter in PREG. -/
def Cluster.param (c : Cluster) (f : VecF) : FR := ((c.sreg f.preg).toNat % 2 ^ 32, 0)

/-- The gain, read along dimension 0 from its origin. -/
def State.gain (s : State) (cat : Nat) (p : VOp) (rm cols : Nat) : List FR := if cat = 9 then s.vopRow p rm 0 cols else []

/-- Flags that the unmasked lanes of a block raise (R154). -/
def Cluster.laneFlags (c : Cluster) (f : VecF) (cols : Nat) (m : List (List FR)) : Nat :=
  m.zipIdx.foldl (fun a l => l.1.zipIdx.foldl (fun b x => if c.lane f cols l.2 x.2 then b ||| x.1.2 else b) a) 0

/-- Checks of ACT before any data moves. -/
def State.actFwdCheck (s : State) (i : Issue) (f : VecF) : Nat :=
  let c := s.cluster i.cl
  let sh := c.shape f
  let q := (c.sreg f.qreg).toNat
  let p2 := c.vop f.opd
  firstStatus [s.vopCheck i.cl false false (c.vop f.opa), s.actCheck i q (c.vop f.opb) sh.1 sh.2, s.actCheck i (q + 64) (c.vop f.opc) sh.1 sh.2,
    if actSecond f.cat then (if rowSaveBad f.cat p2 then 0x0104 else s.actCheck i (q + 128) p2 sh.1 (if f.cat = 9 then 1 else sh.2)) else 0,
    if f.cat = 9 then s.vopCheck i.cl false false (c.vop f.ope) else 0]

/-- Checks of ACTB before any data moves. -/
def State.actBwdCheck (s : State) (i : Issue) (f : VecF) : Nat :=
  let c := s.cluster i.cl
  let sh := c.shape f
  let p2 := c.vop f.opd
  firstStatus [s.vopCheck i.cl false false (c.vop f.opa), s.actCheck i (c.sreg f.qreg).toNat (c.vop f.opb) sh.1 sh.2,
    s.vopCheck i.cl false false (c.vop f.opc),
    if actSecond f.cat then (if rowSaveBad f.cat p2 then 0x0104 else s.vopCheck i.cl false false p2) else 0,
    if f.cat = 9 then s.vopCheck i.cl false false (c.vop f.ope) else 0]

/-- Accumulator slots that ACT writes, or reads. -/
def State.actSlots (s : State) (i : Issue) (f : VecF) (write : Bool) : List Nat :=
  let c := s.cluster i.cl
  let sh := c.shape f
  if write then
    s.vopSlots (c.vop f.opb) true sh.1 sh.2 ++ s.vopSlots (c.vop f.opc) true sh.1 sh.2 ++
      if actSecond f.cat then s.vopSlots (c.vop f.opd) true sh.1 (if f.cat = 9 then 1 else sh.2) else []
  else s.vopSlots (c.vop f.opa) false sh.1 sh.2 ++ if f.cat = 9 then s.vopSlots (c.vop f.ope) false 1 sh.2 else []

/-- Accumulator slots that ACTB reads. -/
def State.actbReads (s : State) (i : Issue) (f : VecF) : List Nat :=
  let c := s.cluster i.cl
  let sh := c.shape f
  s.vopSlots (c.vop f.opa) false sh.1 sh.2 ++ s.vopSlots (c.vop f.opc) false sh.1 sh.2 ++
    (if actSecond f.cat then s.vopSlots (c.vop f.opd) false sh.1 (if f.cat = 9 then 1 else sh.2) else []) ++
    if f.cat = 9 then s.vopSlots (c.vop f.ope) false 1 sh.2 else []

def State.vecAct (s : State) (i : Issue) (f : VecF) : State :=
  let c := s.cluster i.cl
  let sh := c.shape f
  let q := (c.sreg f.qreg).toNat
  let px := c.vop f.opa
  let py := c.vop f.opb
  let p1 := c.vop f.opc
  let p2 := c.vop f.opd
  let pg := c.vop f.ope
  let two := actSecond f.cat
  let w2 := if f.cat = 9 then 1 else sh.2
  let st := s.actFwdCheck i f
  if st ≠ 0 then s.vecFail i st
  else
    let rd := firstStatus [s.vopStatus px sh.1 sh.2, if f.cat = 9 then s.vopStatus pg 1 sh.2 else 0]
    let s := s.vopCountOn i f px sh.1 sh.2
    let s := if f.cat = 9 then s.vopCount i.cl pg 1 sh.2 0 else s
    if rd ≠ 0 then s.vecFail i rd
    else
      let g := s.gain f.cat pg c.rm sh.2
      let r := (List.range sh.1).map fun row => actForward f.cat (c.param f) g (s.vopRow px c.rm row sh.2)
      let s := s.actWrite i f q py sh.1 sh.2 (r.map (·.out))
      let s := s.actWrite i f (q + 64) p1 sh.1 sh.2 (r.map (·.save1))
      let s := if two then s.actWrite i f (q + 128) p2 sh.1 w2 (r.map (·.save2)) else s
      s.vecEntry i 0 (c.laneFlags f sh.2 (r.map (·.out)) ||| c.laneFlags f sh.2 (r.map (·.save1)) ||| c.laneFlags f w2 (r.map (·.save2)))
        (s.actSlots i f true) (s.actSlots i f false)

/-- Operands of ACT, which writes its saved values, or of ACTB touch busy slots (R144). -/
def State.busyAct (s : State) (i : Issue) (f : VecF) (save : Bool) : Bool :=
  let c := s.cluster i.cl
  let sh := c.shape f
  s.vopBusy (c.vop f.opa) false sh.1 sh.2 || s.vopBusy (c.vop f.opb) true sh.1 sh.2 ||
    s.vopBusy (c.vop f.opc) save sh.1 sh.2 ||
    (actSecond f.cat && s.vopBusy (c.vop f.opd) save sh.1 (if f.cat = 9 then 1 else sh.2)) ||
    (f.cat = 9 && s.vopBusy (c.vop f.ope) false 1 sh.2)


def State.vecActb (s : State) (i : Issue) (f : VecF) : State :=
  let c := s.cluster i.cl
  let sh := c.shape f
  let q := (c.sreg f.qreg).toNat
  let py := c.vop f.opa
  let px := c.vop f.opb
  let p1 := c.vop f.opc
  let p2 := c.vop f.opd
  let pg := c.vop f.ope
  let two := actSecond f.cat
  let w2 := if f.cat = 9 then 1 else sh.2
  let st := s.actBwdCheck i f
  if st ≠ 0 then s.vecFail i st
  else
    let rd := firstStatus [s.vopStatus py sh.1 sh.2, s.vopStatus p1 sh.1 sh.2, if two then s.vopStatus p2 sh.1 w2 else 0,
      if f.cat = 9 then s.vopStatus pg 1 sh.2 else 0]
    let s := (s.vopCountOn i f py sh.1 sh.2).vopCountOn i f p1 sh.1 sh.2
    let s := if two then s.vopCountOn i f p2 sh.1 w2 else s
    let s := if f.cat = 9 then s.vopCount i.cl pg 1 sh.2 0 else s
    if rd ≠ 0 then s.vecFail i rd
    else
      let g := s.gain f.cat pg c.rm sh.2
      let r := (List.range sh.1).map fun row =>
        actBackward f.cat (c.param f) g (s.vopRow py c.rm row sh.2) (s.vopRow p1 c.rm row sh.2)
          (if two then s.vopRow p2 c.rm row w2 else [])
      (s.actWrite i f q px sh.1 sh.2 r).vecEntry i 0 (c.laneFlags f sh.2 r) (s.vopSlots px true sh.1 sh.2) (s.actbReads i f)


/-! ### Outlier sums (R92, R93) -/

/-- A sum of products in order; none gives +0. -/
def sumInOrder (l : List FR) : FR := match l with
  | [] => (0, 0)
  | x :: r => r.foldl frAdd x

/-- Element n of row j of the outlier weight rows of a map, rows of `wide` elements (R88). -/
def State.wrow (s : State) (map wide j n : Nat) : FR :=
  if n < wide then (plainToF32 tyW16 (s.readLE (s.readLE (map + 8) 5 + 2 * (j * wide + n)) 2), 0) else (0, 0)

/-- The tile that an outlier sum writes is unbricked F32 in an accumulator window. -/
def State.osumTile (s : State) (p : VOp) : Bool :=
  !p.d.brick && p.d.ty = tyF32 && match regionAt s.dev.part p.d.base with
    | some (.acc _ _) => true
    | _ => false

/-- Checks of OSUM and OSUM.T before any data moves; `src` gives the operand they read. -/
def State.osumCheck (s : State) (i : Issue) (f : VecF) (src : VOp → VOp) : Nat :=
  let c := s.cluster i.cl
  let pw := c.vop f.opb
  let po := c.vop f.opc
  firstStatus [s.vopCheck i.cl false false (src (c.vop f.opa)), s.vopCheck i.cl false false pw, s.vopCheck i.cl true false po,
    if pw.d.omap = 0 || pw.d.ty = tyG4 || !s.osumTile po then 0x0104 else 0]

/-- OSUM and OSUM.T: `value` gives the sum at a row and tile column. -/
def State.vecOsum (s : State) (i : Issue) (f : VecF) (src : VOp → VOp) (cols : VOp → VOp → Nat) (value : State → Nat → VOp → VOp → Nat → Nat → FR) : State :=
  let c := s.cluster i.cl
  let rows := (c.shape f).1
  let pa := src (c.vop f.opa)
  let pw := c.vop f.opb
  let po := c.vop f.opc
  let st := s.osumCheck i f src
  if st ≠ 0 then s.vecFail i st
  else
    let n := cols pa pw
    let rd := firstStatus [s.vopStatus pa rows n, if s.poisoned pw.d.omap (64 + 4 * s.readLE pw.d.omap 2) then 0x0702 else 0]
    let s := s.vopCount i.cl pa rows n 0
    if rd ≠ 0 then s.vecFail i rd
    else
      let m := (List.range rows).map fun r => (List.range 128).map fun k => value s c.rm pa pw r k
      (s.putLanes (i.cl / 16) po.d po.o [128, rows] (fun t => c.lane f 128 (nth 0 t 1) (nth 0 t 0)) fun t =>
        (nth (0, 0) (nth [] m (nth 0 t 1)) (nth 0 t 0)).1).vecEntry i 0 (c.laneFlags f 128 m) (s.vopSlots po true rows 128) (s.vopSlots pa false rows n)

/-- The streamed operand of OSUM.T, read across all of dimension 0 (R243). -/
def VOp.across (p : VOp) : VOp := { p with o := p.o.set 0 0 }

/-- The side tensor or streamed operand, or the output tile, of an outlier sum touches busy slots (R144). -/
def State.busyOsum (s : State) (i : Issue) (f : VecF) (trans : Bool) : Bool :=
  let c := s.cluster i.cl
  let pa := c.vop f.opa
  s.vopBusy (if trans then pa.across else pa) false (c.shape f).1
      (if trans then pa.d.sizeOf 0 else s.readLE (c.vop f.opb).d.omap 2) ||
    s.vopBusy (c.vop f.opc) true (c.shape f).1 128

/-- OSUM (R92): O(i, n) over the entries of the map; n starts at the weight's dimension-0 origin. -/
def State.vecOsumN (s : State) (i : Issue) (f : VecF) : State :=
  s.vecOsum i f id (fun _ w => s.readLE w.d.omap 2)
    (fun s rm a w r k =>
      let n := (nth 0 w.o 0).toNat + k
      sumInOrder ((List.range (s.readLE w.d.omap 2)).map fun j => frMul (s.vopF32 a rm r j) (s.wrow w.d.omap (w.d.sizeOf 0) j n)))

/-- OSUM.T (R93): O(i, CHANNEL_j) over the whole of dimension 0 of dY, +0 in the tile's other columns; channels
start at the weight's dimension-1 origin. -/
def State.vecOsumT (s : State) (i : Issue) (f : VecF) : State :=
  s.vecOsum i f VOp.across (fun a _ => a.d.sizeOf 0)
    (fun s rm a w r k =>
      match (s.mapChannels w.d.omap).findIdx? (· = (nth 0 w.o 1).toNat + k) with
      | some j => sumInOrder ((List.range (a.d.sizeOf 0)).map fun n =>
          frMul (s.vopF32 a rm r n) (s.wrow w.d.omap (w.d.sizeOf 0) j n))
      | none => (0, 0))

/-! ### The functions by code (Table Vector functions), and how they begin -/

/-- The work of a VEC function. -/
def State.vecWork (s : State) (fn : Nat) (i : Issue) (f : VecF) : State :=
  match fn with
  | 0x00 => s.vecMap i f f.prec fun m rm a b _ => Fp.add m rm a b
  | 0x01 => s.vecMap i f f.prec fun m rm a b _ => Fp.sub m rm a b
  | 0x02 => s.vecMap i f f.prec fun m rm a b _ => Fp.mul m rm a b
  | 0x03 => s.vecMap i f f.prec fun m rm a b c => Fp.fma m rm a b c
  | 0x04 => s.vecMap i f f.prec fun m _ a b _ => Fp.minimum m a b
  | 0x05 => s.vecMap i f f.prec fun m _ a b _ => Fp.maximum m a b
  | 0x06 => s.vecMap i f f.prec fun m _ a _ _ => (Fp.neg m a, 0)
  | 0x07 => s.vecMap i f f.prec fun m _ a _ _ => (Fp.abs m a, 0)
  | 0x08 => s.vecCmp i f false fun m a b => Fp.lt m b a
  | 0x09 => s.vecCmp i f false fun m a b => Fp.le m b a
  | 0x0A => s.vecCmp i f true fun m a b => Fp.eq m a b
  | 0x0B => s.vecSel i f
  | 0x0C => s.vecCvtd i f
  | 0x0D => s.vecCvts i f
  | 0x10 => s.vecMap i f f.prec fun m rm a b _ => Fp.div m rm a b
  | 0x11 => s.vecMap i f f.prec fun m rm a _ _ => Fp.sqrt m rm a
  | 0x18 => s.vecMap i f false fun _ _ a _ _ => Sfu.exp2 a
  | 0x19 => s.vecMap i f false fun _ _ a _ _ => Sfu.log2 a
  | 0x1A => s.vecMap i f false fun _ _ a _ _ => Sfu.rcp a
  | 0x1B => s.vecMap i f false fun _ _ a _ _ => Sfu.rsq a
  | 0x1C => s.vecMap i f false fun _ _ a _ _ => Sfu.sig a
  | 0x1D => s.vecMap i f false fun _ _ a _ _ => Sfu.tanh a
  | 0x20 => s.vecLd i f
  | 0x21 => s.vecSt i f
  | 0x22 => s.vecStq i f
  | 0x28 => s.vecRow i f rowSum
  | 0x29 => s.vecRow i f rowMax
  | 0x2A => s.vecRow i f rowMin
  | 0x30 => s.vecAct i f
  | 0x31 => s.vecActb i f
  | 0x38 => s.vecOsumN i f
  | 0x39 => s.vecOsumT i f
  | 0x3C => s.vecSetrm i f
  | _ => s

/-- Status of the checks that a function makes before any data moves. -/
def State.vecCheck (s : State) (fn : Nat) (i : Issue) (f : VecF) : Nat :=
  match fn with
  | 0x20 => s.ldCheck i f
  | 0x21 => s.stCheck i f
  | 0x22 => s.stqCheck i f
  | 0x28 | 0x29 | 0x2A => s.rowCheck i f
  | 0x30 => s.actFwdCheck i f
  | 0x31 => s.actBwdCheck i f
  | 0x38 => s.osumCheck i f id
  | 0x39 => s.osumCheck i f VOp.across
  | _ => 0

/-- A memory form whose checks pass touches a busy slot (R144). The checks come first, as R191 orders them before any data
moves. DESIGN CHOICE, log 18. -/
def State.vecBusy (s : State) (fn : Nat) (i : Issue) (f : VecF) : Bool :=
  s.vecCheck fn i f = 0 &&
    match fn with
    | 0x20 => s.busyA i f false
    | 0x21 | 0x22 => s.busyA i f true
    | 0x28 | 0x29 | 0x2A => s.busyRow i f
    | 0x30 => s.busyAct i f true
    | 0x31 => s.busyAct i f false
    | 0x38 => s.busyOsum i f false
    | 0x39 => s.busyOsum i f true
    | _ => false

/-- Accumulator slots that a function whose checks pass writes. -/
def State.vecWrites (s : State) (fn : Nat) (i : Issue) (f : VecF) : List Nat :=
  let c := s.cluster i.cl
  let sh := c.shape f
  if s.vecCheck fn i f ≠ 0 then []
  else
    match fn with
    | 0x21 | 0x22 => s.vopSlots (c.vop f.opa) true sh.1 sh.2
    | 0x28 | 0x29 | 0x2A => s.vopSlots (c.vop f.opb) true sh.1 1
    | 0x30 => s.actSlots i f true
    | 0x31 => s.vopSlots (c.vop f.opb) true sh.1 sh.2
    | 0x38 | 0x39 => s.vopSlots (c.vop f.opc) true sh.1 128
    | _ => []

/-- Quantizer records that a function uses (R156, R244). -/
def Cluster.vecRecs (c : Cluster) (fn : Nat) (f : VecF) : List Nat :=
  let a := (c.sreg f.qreg).toNat
  match fn with
  | 0x22 | 0x31 => [a]
  | 0x30 => [a, a + 64, a + 128]
  | _ => []

/-- A VEC instruction may begin: it does not wait for an accumulation or a merge (R144). -/
def State.vecMay (s : State) (fn : Nat) (i : Issue) (f : VecF) : Bool := f.nowait || !s.vecBusy fn i f

/-- A VEC instruction begins: register functions work on the registers, memory forms on what they read of memory (R51),
and one that finds a busy slot with NOWAIT set fails (R144). -/
def State.vecStart (s : State) (fn : Nat) (i : Issue) (f : VecF) : State :=
  let c := s.cluster i.cl
  if fn < 0x20 || fn = 0x3C then s.vecWork fn i f
  else
    s.marked i.cl 7 (c.vecRecs fn f) ([f.opa, f.opb, f.opc, f.opd].map fun o => (c.vop o).d) [(c.vop f.ope).d]
      (if s.vecBusy fn i f then s.vecFail i 0x0202 else s.racing i.cl 7 fun s => s.vecWork fn i f)

/-- A VEC instruction issues: it begins at once when the engine holds no other and it need not wait; else it waits in the
engine's queue for its turn (R148, R226; DESIGN CHOICE, log 18). -/
def State.vec (s : State) (fn : Nat) (i : Issue) (f : VecF) : Res :=
  guarded (s.vecReady fn i f) s
    (if (s.cluster i.cl).vec.isEmpty && s.vecMay fn i f then s.vecStart fn i f
     else s.enqueue i.cl 7 i 0x28 (.vec fn i f) (s.vecWrites fn i f))

def execVecAdd (i : Issue) (f : VecF) (s : State) : Res := s.vec 0x00 i f
def execVecSub (i : Issue) (f : VecF) (s : State) : Res := s.vec 0x01 i f
def execVecMul (i : Issue) (f : VecF) (s : State) : Res := s.vec 0x02 i f
def execFma (i : Issue) (f : VecF) (s : State) : Res := s.vec 0x03 i f
def execVecMin (i : Issue) (f : VecF) (s : State) : Res := s.vec 0x04 i f
def execVecMax (i : Issue) (f : VecF) (s : State) : Res := s.vec 0x05 i f
def execNeg (i : Issue) (f : VecF) (s : State) : Res := s.vec 0x06 i f
def execAbs (i : Issue) (f : VecF) (s : State) : Res := s.vec 0x07 i f
def execCmpgt (i : Issue) (f : VecF) (s : State) : Res := s.vec 0x08 i f
def execCmpge (i : Issue) (f : VecF) (s : State) : Res := s.vec 0x09 i f
def execCmpeq (i : Issue) (f : VecF) (s : State) : Res := s.vec 0x0A i f
def execSel (i : Issue) (f : VecF) (s : State) : Res := s.vec 0x0B i f
def execCvtd (i : Issue) (f : VecF) (s : State) : Res := s.vec 0x0C i f
def execCvts (i : Issue) (f : VecF) (s : State) : Res := s.vec 0x0D i f
def execDiv (i : Issue) (f : VecF) (s : State) : Res := s.vec 0x10 i f
def execSqrt (i : Issue) (f : VecF) (s : State) : Res := s.vec 0x11 i f
def execExp2 (i : Issue) (f : VecF) (s : State) : Res := s.vec 0x18 i f
def execLog2 (i : Issue) (f : VecF) (s : State) : Res := s.vec 0x19 i f
def execRcp (i : Issue) (f : VecF) (s : State) : Res := s.vec 0x1A i f
def execRsq (i : Issue) (f : VecF) (s : State) : Res := s.vec 0x1B i f
def execSig (i : Issue) (f : VecF) (s : State) : Res := s.vec 0x1C i f
def execTanh (i : Issue) (f : VecF) (s : State) : Res := s.vec 0x1D i f
def execLd (i : Issue) (f : VecF) (s : State) : Res := s.vec 0x20 i f
def execSt (i : Issue) (f : VecF) (s : State) : Res := s.vec 0x21 i f
def execStq (i : Issue) (f : VecF) (s : State) : Res := s.vec 0x22 i f
def execRowsum (i : Issue) (f : VecF) (s : State) : Res := s.vec 0x28 i f
def execRowmax (i : Issue) (f : VecF) (s : State) : Res := s.vec 0x29 i f
def execRowmin (i : Issue) (f : VecF) (s : State) : Res := s.vec 0x2A i f
def execAct (i : Issue) (f : VecF) (s : State) : Res := s.vec 0x30 i f
def execActb (i : Issue) (f : VecF) (s : State) : Res := s.vec 0x31 i f
def execOsum (i : Issue) (f : VecF) (s : State) : Res := s.vec 0x38 i f
def execOsumT (i : Issue) (f : VecF) (s : State) : Res := s.vec 0x39 i f
def execSetrm (i : Issue) (f : VecF) (s : State) : Res := s.vec 0x3C i f

end Sys2Proof.Machine
end

