-- ==== Sys2Proof/Machine/Update.lean ====
section
/-! DEFINITION. Update.lean: the gradient buffer, the update engine, publication of serving copies, and the
window arithmetic of a tuning job (ch. Vector engines R171-R181; ch. Tuning passes R308-R313). -/

namespace Sys2Proof.Machine

/-! ### The gradient buffer (R308, R309) -/

/-- Thresholds a job's costume owns. -/
def State.alphas (s : State) (i : Nat) : List Nat := imgAlphas (s.jobTables i)
/-- Bytes of words and threshold area. -/
def State.bufLen (s : State) (i : Nat) : Nat := 4 * s.jobP i + 256 * (s.alphas i).length
def Job.line (j : Job) : Nat := j.gbuf - 64
def State.word (s : State) (j : Job) (p : Nat) : Nat := s.readLE (j.gbuf + 4 * p) 4
def State.nonfinite (s : State) (j : Job) : Bool := s.readLE j.line 4 ≠ 0
def State.samples (s : State) (j : Job) : Nat := s.readLE (j.line + 4) 4
def State.steps (s : State) (j : Job) : Nat := s.readLE (j.line + 8) 2
def State.bufSigma (s : State) (j : Job) : Nat := s.readLE (j.line + 0xC) 1
/-- Writes the Puppeteer's fields of the status line. -/
def State.setLine (s : State) (j : Job) (samples steps sigma : Nat) : State :=
  s.writeBytes (j.line + 4) (toBytes 4 samples ++ toBytes 2 steps ++ zeros 2 ++ toBytes 1 sigma ++ zeros 51)
/-- Every word, partial word and the status line to 0, with SIGMA (R313 step 6). -/
def State.resetBuf (s : State) (i : Nat) (j : Job) (sigma : Nat) : State :=
  (s.zeroRange j.line (64 + s.bufLen i)).setLine j 0 0 sigma

/-- A balanced tree over a list, one accumulator node of R142 at each join. -/
def treeSum : Nat → List (BitVec 32) → BitVec 32
  | 0, l => l.headD 0
  | f + 1, l =>
    let rec pair : List (BitVec 32) → List (BitVec 32)
      | a :: b :: r => (node false (a, 0) (b, 0)).1 :: pair r
      | l => l
    if l.length ≤ 1 then l.headD 0 else treeSum f (pair l)

/-- The fold (R313 step 1): the word of each owned threshold takes the sum of its 64 partial words. -/
def State.fold (s : State) (i : Nat) (j : Job) : State :=
  let b := s.jobTables i
  (s.alphas i).zipIdx.foldl (fun s q =>
    let l := (List.range 64).map fun w => word32 (s.readLE (j.gbuf + 4 * s.jobP i + 256 * q.2 + 4 * w) 4)
    s.writeLE (j.gbuf + 4 * (imgQ b q.1).2.1) 4 (treeSum 6 l).toNat) s

/-- The scan (R313 step 2): some word or partial word is infinite or NaN. -/
def State.scan (s : State) (i : Nat) (j : Job) : Bool :=
  (List.range (s.bufLen i / 4)).any fun k => !Fp.isFinite .f32 (s.readLE (j.gbuf + 4 * k) 4)

/-- Table Loss-scale decisions: whether the update applies, new σ, new CLEAN, status of the window's last feed. -/
def decision (ovf : Bool) (sigma clean steps grow : Nat) : Bool × Nat × Nat × Nat :=
  if ovf then (if sigma = 0 then (false, 0, 0, 0x0404) else (false, sigma - 1, 0, 0x0401))
  else if grow ≤ clean + steps then (true, if sigma < 24 then sigma + 1 else 24, 0, 0)
  else (true, sigma, min 65535 (clean + steps), 0)

/-! ### The optimizer (R172-R177) -/

def optOf (o : Bytes) : Nat := fieldAt o 0 1
def precOf (o : Bytes) : Nat := bits (fieldAt o 0 4) 8 2
def pubOf (o : Bytes) : Nat := bits (fieldAt o 0 4) 10 2
def rmOf (o : Bytes) : Nat := bits (fieldAt o 0 4) 12 2

/-- R173: the record opens a job. -/
def optOk (o : Bytes) : Bool :=
  let beta (off : Nat) : Bool := let x := fieldAt o off 8; Fp.le .f64 0 x && Fp.lt .f64 x 0x3FF0000000000000
  let pos (off : Nat) : Bool := let x := fieldAt o off 8; Fp.isFinite .f64 x && Fp.le .f64 0 x
  optOf o ≤ 2 && precOf o ≤ 2 && pubOf o ≤ 1 && bits (fieldAt o 0 4) 14 18 = 0 && fieldAt o 4 4 = 0 && allZero (slice o 0x30 16) &&
    pos 0x08 && (optOf o = 0 || beta 0x10) && (optOf o ≠ 2 || (beta 0x18 && pos 0x20 && pos 0x28))

/-- Working format, and a scalar of the record in it: converted once, as the job opens (R172). -/
def wfmt (o : Bytes) : Fmt := if precOf o = 2 then .f64 else .f32
def scalar (o : Bytes) (off : Nat) : FR := (if precOf o = 2 then fieldAt o off 8 else (Fp.conv .f64 .f32 0 (fieldAt o off 8)).1, 0)
def oneOf (o : Bytes) : Nat := if precOf o = 2 then 0x3FF0000000000000 else 0x3F800000

/-- An operation of the engine in its format and rounding, collecting flags. -/
def engineOp (f : Fmt) (rm : Nat) (op : Fmt → Nat → Nat → Nat → Nat × Nat) (a b : FR) : FR :=
  let r := op f rm a.1 b.1
  (r.1, a.2 ||| b.2 ||| r.2)

/-- The per-step scalars (R175). -/
structure StepScalars where
  p1 : Nat
  p2 : Nat
  c1 : FR
  c2 : FR
  a1 : FR
  a2 : FR
  dl : FR

def stepScalars (o : Bytes) (p1 p2 : Nat) : StepScalars :=
  let f := wfmt o
  let rm := rmOf o
  let one : FR := (oneOf o, 0)
  let q1 := engineOp f rm Fp.mul (p1, 0) (scalar o 0x10)
  let q2 := engineOp f rm Fp.mul (p2, 0) (scalar o 0x18)
  ⟨q1.1, q2.1, ((engineOp f rm Fp.sub one (scalar o 0x10)).1, 0), ((engineOp f rm Fp.sub one (scalar o 0x18)).1, 0),
    engineOp f rm Fp.div (scalar o 0x08) (engineOp f rm Fp.sub one q1), engineOp f rm Fp.div one (engineOp f rm Fp.sub one q2),
    engineOp f rm Fp.mul (scalar o 0x08) (scalar o 0x28)⟩

/-- The flags that a job raises as it opens: those of the conversion of the scalars its optimizer uses (R172), and of c1
and c2 (R175). -/
def openFlags (o : Bytes) : Nat :=
  let used := if optOf o = 0 then [0x08] else if optOf o = 1 then [0x08, 0x10] else [0x08, 0x10, 0x18, 0x20, 0x28]
  let conv := if precOf o = 2 then 0 else used.foldl (fun a x => a ||| (Fp.conv .f64 .f32 0 (fieldAt o x 8)).2) 0
  let less (x : Nat) : Nat := if optOf o = 2 then (engineOp (wfmt o) (rmOf o) Fp.sub (oneOf o, 0) (scalar o x)).2 else 0
  conv ||| less 0x10 ||| less 0x18

/-- One parameter's state: master (hi), lo, first and second moment. -/
structure Cell4 where
  th : Nat
  lo : Nat
  m : Nat
  v : Nat

/-- The update of one parameter (R175): G as an F32 code, the sample count, σ. -/
def updateParam (o : Bytes) (k : StepScalars) (sigma c g : Nat) (x : Cell4) : Cell4 × Nat :=
  let f := wfmt o
  let rm := rmOf o
  let add := engineOp f rm Fp.add
  let sub := engineOp f rm Fp.sub
  let mul := engineOp f rm Fp.mul
  let div := engineOp f rm Fp.div
  let fma3 (a b c : FR) : FR := let r := Fp.fma f rm a.1 b.1 c.1; (r.1, a.2 ||| b.2 ||| c.2 ||| r.2)
  let gw : FR := (if precOf o = 2 then Fp.widen g else g, 0)
  let two : FR := ((Fp.round f 0 false 1 (-(sigma : Int)) false).1, 0)
  let gr := mul (div gw (Fp.round f rm false c 0 false)) two
  let th : FR := (x.th, 0)
  let r : FR × FR × FR :=
    if optOf o = 0 then (mul (scalar o 0x08) gr, (x.m, 0), (x.v, 0))
    else if optOf o = 1 then
      let m := fma3 (scalar o 0x10) (x.m, 0) gr
      (mul (scalar o 0x08) m, m, (x.v, 0))
    else
      let m := fma3 (scalar o 0x10) (x.m, 0) (mul k.c1 gr)
      let v := fma3 (scalar o 0x18) (x.v, 0) (mul k.c2 (mul gr gr))
      let sq := let y := mul v k.a2; let z := Fp.sqrt f rm y.1; ((z.1, y.2 ||| z.2) : FR)
      let u := div (mul m k.a1) (add sq (scalar o 0x20))
      (add (mul th k.dl) u, m, v)
  let fl := r.1.2 ||| r.2.1.2 ||| r.2.2.2
  if precOf o = 1 then
    let d : FR := (Fp.neg f r.1.1, 0)
    let s := add th d
    let bv := sub s th
    let av := sub s bv
    let e := add (sub th av) (sub d bv)
    let lo := add (add (x.lo, 0) (0, 0)) e
    let hi2 := add s lo
    let lo2 := sub lo (sub hi2 s)
    (⟨hi2.1, lo2.1, r.2.1.1, r.2.2.1⟩, fl ||| lo2.2)
  else
    let t := sub th r.1
    (⟨t.1, x.lo, r.2.1.1, r.2.2.1⟩, fl ||| t.2)

/-- Bytes of one block's optimizer state in the private memory. -/
def blockBytes (o : Bytes) : Nat :=
  let w := if precOf o = 2 then 8 else 4
  256 * ((if precOf o = 1 then 8 else w) + (if optOf o = 0 then 0 else if optOf o = 1 then w else 2 * w))

def Cell4.finite (f : Fmt) (x : Cell4) : Bool := Fp.isFinite f x.th && Fp.isFinite f x.lo && Fp.isFinite f x.m && Fp.isFinite f x.v

/-- One run of blocks of a shard: for each block its number, c and the words of G; the new cells, or none when a
value is not finite, and the flags (R177). -/
def updateRun (o : Bytes) (k : StepScalars) (sigma : Nat) (l : List (Nat × List Nat × List Cell4)) : Option (List Cell4) × Nat :=
  let r := l.flatMap fun b => if b.1 = 0 then b.2.2.map fun x => (x, 0) else List.zipWith (updateParam o k sigma b.1) b.2.1 b.2.2
  let fl := r.foldl (fun a x => a ||| x.2) 0
  (if r.all fun x => x.1.finite (wfmt o) then some (r.map (·.1)) else none, fl)

/-- Cells of a shard, by parameter. -/
def Shard.cells (h : Shard) : List Cell4 :=
  (List.range (256 * h.count)).map fun k => ⟨nth 0 h.master k, nth 0 h.lo k, nth 0 h.mom1 k, nth 0 h.mom2 k⟩
def Shard.withCells (h : Shard) (o : Bytes) (l : List Cell4) : Shard :=
  { h with master := l.map (·.th), lo := if precOf o = 1 then l.map (·.lo) else [],
           mom1 := if optOf o = 0 then [] else l.map (·.m), mom2 := if optOf o = 2 then l.map (·.v) else [] }

/-- The update of a shard: its new state, the flags, and which of its blocks were withheld under R177. `inp` gives c
and G of each block. A shard larger than the 16 MiB private memory runs in pieces, each committed by itself. R177
leaves three points open (DESIGN CHOICE, log 53): a piece holds as many blocks as fit 16 MiB less 64 bytes; no piece
after a withheld one takes effect; and KUPD, P1, P2 and GEN advance when at least one piece was committed. -/
def Shard.update (h : Shard) (o : Bytes) (sigma : Nat) (inp : List (Nat × List Nat)) : Shard × Nat × List Nat :=
  let k := stepScalars o h.p1 h.p2
  let n := max 1 ((16 * 2 ^ 20 - 64) / blockBytes o)
  let blocks := List.zipWith (fun (b : Nat × List Nat) c => (b.1, b.2, c)) inp (Crypto.pieces 256 (h.count + 1) h.cells)
  let runs := Crypto.pieces n (h.count + 1) blocks
  let r := runs.foldl (fun (a : List Cell4 × Nat × List Nat × Nat × Bool) run =>
    let old := run.flatMap fun b => b.2.2
    let held := a.2.2.1 ++ (List.range run.length).map fun t => h.first + a.2.2.2.1 + t
    if a.2.2.2.2 then (a.1 ++ old, a.2.1, held, a.2.2.2.1 + run.length, true)
    else
      let u := updateRun o k sigma run
      match u.1 with
      | some l => (a.1 ++ l, a.2.1 ||| u.2, a.2.2.1, a.2.2.2.1 + run.length, false)
      | none => (a.1 ++ old, a.2.1 ||| u.2, held, a.2.2.2.1 + run.length, true)) ([], 0, [], 0, false)
  let done := r.2.2.1.length < h.count
  let h' := h.withCells o r.1
  (if done && optOf o = 2 then { h' with kupd := h.kupd + 1, p1 := k.p1, p2 := k.p2 } else h', r.2.1, r.2.2.1)

/-! ### Publication (R180, R181, R353) -/

/-- Where a block lies in an image: in the vector section, or a head brick. -/
inductive Place where
  | vec (off len : Nat)
  | head (elem hdr sum : Nat)

def placeOf (b : Bytes) (k : Nat) : Place :=
  let v := imgVec b
  let n := imgElem b
  if 256 * k < alignUp 256 (imgPV b) then .vec (v.1 + n * 256 * k) (256 * n)
  else
    match (List.range (imgHeads b)).find? fun h =>
        let e := imgHead b h
        e.pidx ≤ 256 * k && 256 * k < e.pidx + e.k * e.n with
    | some h =>
      let e := imgHead b h
      let j := k - e.pidx / 256
      .head (e.elem + 128 * j) (e.scale + 4 * j) (e.sum + 32 * j)
    | none => .vec v.1 0

/-- The stages that hold both buffers of a job's costume: its tuning stage and those that follow. -/
def State.tuneStages (s : State) (i : Nat) (j : Job) : List Nat :=
  (j.stage :: j.follow).filter fun g => match s.resident g i with
    | some r => r.st = .resident && r.alt ≠ 0
    | none => false

/-- Header and tables of the image that a stage's buffer holds. -/
def State.imageHead (s : State) (a : Nat) : Bytes := s.readBytes a (s.readLE (a + 0x20) 4)

/-- Writes a block of a serving copy into the non-current buffer of each stage: a body of the vector section, or of
a head the element bytes and the header. -/
def State.writeBlock (s : State) (i : Nat) (j : Job) (k : Nat) (body : Bytes) : State :=
  (s.tuneStages i j).foldl (fun s g =>
    match s.resident g i with
    | none => s
    | some r =>
      match placeOf (s.imageHead r.alt) k with
      | .vec off len => s.writeBytes (r.alt + off) (body.take len)
      | .head el hd su =>
        let codes := unpackBrick tyN4 (body.take 128)
        let s := s.writeBytes (r.alt + el) (body.take 128)
        let s := s.writeLE (r.alt + hd) 4 (reTag (fieldAt body 128 4) (brickTag (r.alt + el)))
        s.writeBytes (r.alt + su) ((brickSums tyN4 2 codes).flatMap fun v => toBytes 2 (unsigned v 16))) s

/-- The body of a block as the current buffer of the tuning stage holds it. -/
def State.currentBlock (s : State) (i : Nat) (j : Job) (k : Nat) : Bytes :=
  match s.resident j.stage i with
  | none => []
  | some r =>
    match placeOf (s.imageHead r.addr) k with
    | .vec off len => s.readBytes (r.addr + off) len
    | .head el hd _ => s.readBytes (r.addr + el) 128 ++ s.readBytes (r.addr + hd) 4

/-- A block unchanged: what the current buffer holds, in the job's serving format. -/
def State.keptBlock (s : State) (i : Nat) (j : Job) (k : Nat) : Bytes :=
  let fmt := pubOf j.opt
  let b := s.currentBlock i j k
  let old := match s.resident j.stage i with
    | some r => bits (s.readLE (r.addr + 4) 4) 16 2
    | none => fmt
  if b.length = 132 || old = fmt then b
  else (List.range 256).flatMap fun e =>
    let w := if old = 1 then 2 else 1
    let x := plainToF32 (if old = 1 then tyW16 else tyE8) (fieldAt b (w * e) w)
    if fmt = 1 then toBytes 2 (toW16 (Fp.dec .f32 x) false).1 else toBytes 1 (toE8 (Fp.dec .f32 x) 0).1

/-- The exponent of a head brick (R71 with L = 6) over exact values: 254 with an infinity, 0 when all are zero. -/
def headExp (l : List Fval) : Nat :=
  if l.any fun v => match v with
      | .inf _ => true
      | _ => false then 254
  else
    let ok (e : Nat) : Bool := l.all fun v => match v with
      | .fin _ m x => decide (m = 0) || cmpMag m x 6 ((e : Int) - 127) ≤ 0
      | _ => true
    if l.all fun v => match v with
      | .fin _ m _ => m == 0
      | _ => true then 0
    else firstE ok 254 1

/-- The serving form of a block of master values, and how many elements R54 counts. -/
def serveBlock (o : Bytes) (head : Bool) (l : List Nat) : Bytes × Nat :=
  let vals := l.map (Fp.dec (wfmt o))
  if head then
    let e := headExp vals
    let r := vals.map fun v => toBricked tyN4 v e 0 0
    let codes := r.map (·.1)
    let n := r.countP (·.2)
    let z := e = 0 || codes.all fun c => c % 8 = 0
    (packBrick tyN4 (if z then codes.map fun _ => 0 else codes) ++ toBytes 4 (if z then mkHdr 0 0 0 false false true else mkHdr e 0 0 (n ≠ 0) false false),
      if z then 0 else n)
  else
    let r := vals.map fun v => if pubOf o = 1 then toW16 v false else toE8 v 0
    (r.flatMap fun x => toBytes (if pubOf o = 1 then 2 else 1) x.1, r.countP (·.2))

/-- A block of the costume is a head brick. -/
def State.isHead (s : State) (i k : Nat) : Bool := alignUp 256 (imgPV (s.jobTables i)) ≤ 256 * k

/-- The PARAM frames of an owned block (R352): its body, or two halves in W16. -/
def State.sendParam (s : State) (i k : Nat) (body : Bytes) (same : Bool) : State :=
  match (s.job i).bind Job.member with
  | none => s
  | some r =>
    let f (half : Bool) : FrameOut := { ty := 0x19, block := k, low := b2n same * 2 ^ 17 + b2n half * 2 ^ 18, e := Table.get 0 r.agreed k }
    let p := k % r.rings
    let s := s.ringSend i p (f false) (body.take 256)
    if body.length = 512 then s.ringSend i p (f true) (body.drop 256) else s

/-- c and G of a block at its owner: a finished sum of the ring, or the job's own buffer and SAMPLES. -/
def State.blockInput (s : State) (j : Job) (k : Nat) : Nat × List Nat :=
  match j.member with
  | some r => match Table.find r.done k with
    | some d => (d.samples, d.words.map (·.toNat))
    | none => (0, [])
  | none => (s.samples j, (List.range 256).map fun e => s.word j (256 * k + e))

/-- SHARD_UPDATE (R175, R177, R180): the engine of a die updates its shard, commits it or withholds it, and its
blocks are written into the non-current buffers; a ring's owner sends them as PARAM frames. `lost` says that its replay has failed,
which withholds it (R474). -/
def State.shardUpdate (s : State) (i die : Nat) (j : Job) (h : Shard) (lost : Bool := false) : State :=
  let inp := (List.range h.count).map fun t => s.blockInput j (h.first + t)
  let none1 := !lost && inp.all fun x => x.1 = 0
  let r := if none1 || lost then (h, 0, (List.range h.count).map fun t => h.first + t) else h.update j.opt (s.bufSigma j) inp
  let bad := !none1 && !r.2.2.isEmpty
  let d := s.die die
  let sk := satAdd 32 d.skipped (b2n bad)
  let s := s.setDie die { d with ueFlags := d.ueFlags ||| r.2.1, skipped := sk.1, skipOvf := d.skipOvf || sk.2 }
  let shards := j.shards.map fun x => if x.die = die then { r.1 with gen := if r.2.2.length < h.count then j.gen + 1 else h.gen } else x
  let j' := { j with shards := shards, skipped := j.skipped + b2n (bad || none1), left := j.left.filter (· ≠ die)
                     unwritten := j.unwritten.filter fun k => !(h.first ≤ k && k < h.first + h.count) }
  let s := s.setJob i j'
  (List.range h.count).foldl (fun s t =>
    let k := h.first + t
    let keep := r.2.2.contains k || (nth (0, []) inp t).1 = 0
    if keep then (s.writeBlock i j k (s.keptBlock i j k)).sendParam i k (s.keptBlock i j k) true
    else
      let p := serveBlock j.opt (s.isHead i k) ((r.1.master.drop (256 * t)).take 256)
      let d := s.die die
      let x := satAdd 32 d.pubSat p.2
      ((s.setDie die { d with pubSat := x.1, pubOvf := d.pubOvf || x.2 }).writeBlock i j k p.1).sendParam i k p.1 false) s

/-- The non-current buffers of a job are free of leases (R181). -/
def State.altFree (s : State) (i : Nat) (j : Job) : Bool :=
  (s.tuneStages i j).all fun g => match s.resident g i with
    | some r => !s.leasedAt g r.alt
    | none => true

def execShardUpdate (job die : Nat) (s : State) : Res :=
  match s.job job with
  | none => .next s
  | some j =>
    match j.shards.find? fun h => h.die = die with
    | none => .next s
    | some h => guarded (j.updating && j.left.contains die && s.altFree job j) s (s.shardUpdate job die j h)

end Sys2Proof.Machine
end

