-- ==== Sys2Proof/Machine/Tuning.lean ====
section
/-! DEFINITION. Tuning.lean: tuning jobs: opening, activation, feeds, windows, checkpoints, closing, and the
retirement of a costume (ch. Tuning passes; ch. Costumes R285, R286). -/

namespace Sys2Proof.Machine

def State.mapJob (s : State) (i : Nat) (f : Job → Job) : State :=
  match s.job i with
  | some j => s.setJob i (f j)
  | none => s

/-! ### Activation (R290, R291) -/

def Part.jobLimit : Part → Nat
  | .lg100 => 64
  | .lg052 => 32

/-- The lowest free job number. DESIGN CHOICE, log 23. -/
def State.freeNumber (s : State) : Option Nat :=
  (List.range s.dev.part.jobLimit).find? fun n => s.jobs.all fun x => x.2.number ≠ some n

/-- Bytes at the start of a stage's lowest GRADIENT granule that hold LOSS_BASE values. DESIGN CHOICE, log 23. -/
def lossBytes : Nat := 0x8000
def State.lossBase (s : State) (g : Nat) : Nat := granuleAddr 0 ((s.granules g 0 5).headD 0)

/-- A byte range lies in the stage's GRADIENT granules, clear of the losses and of the other jobs' buffers. -/
def State.gradFits (s : State) (g a n : Nat) : Bool :=
  let gr := s.granules g 0 5
  (List.range ((a + n - 1) / 0x400_0000 + 1 - a / 0x400_0000)).all (fun k => gr.contains (a / 0x400_0000 + k)) &&
    s.lossBase g + lossBytes ≤ a &&
    s.jobs.all fun x => !(x.2.active && x.2.stage = g) || x.2.line + 64 + s.bufLen x.1 ≤ a || a + n ≤ x.2.line

/-- The lowest place for a gradient buffer, none when the granules are taken. -/
def State.gradPlace (s : State) (g n : Nat) : Option Nat :=
  let ends := s.jobs.filterMap fun x => if x.2.active && x.2.stage = g then some (alignUp 64 (x.2.line + 64 + s.bufLen x.1)) else none
  ((s.granules g 0 5).map (granuleAddr 0) ++ (s.lossBase g + lossBytes) :: ends).find? fun a => s.gradFits g a n

/-- Gives a waiting job a number and a buffer, if there is one of each. -/
def State.activate (s : State) (i : Nat) : State :=
  match s.job i with
  | none => s
  | some j =>
    match s.freeNumber, s.gradPlace j.stage (64 + s.bufLen i) with
    | some n, some a =>
      let j := { j with number := some n, gbuf := a + 64, windows := 0 }
      ((s.setJob i j).zeroRange a (64 + s.bufLen i)).setLine j 0 0 j.sigma
    | _, _ => s

/-- Waiting jobs are activated in their order. -/
def State.activateAll (s : State) : State :=
  let l := sortPairs (s.jobs.filterMap fun x => if x.2.active then none else some (x.2.order, x.1))
  l.foldl (fun s p => s.activate p.2) s

/-- A job's residency is no longer held: its second buffers enter SCRUBBING (R279, R281, R291). -/
def State.releaseBuffers (s : State) (i : Nat) : State :=
  s.costumes.res.foldl (fun s r =>
    if r.index ≠ i || !(r.tuneHeld || r.alt ≠ 0) then s
    else (s.vacate r r.alt).setResident { r with tuneHeld := false, alt := 0 }) s

/-! ### Packages that the module writes (R313 step 5, R316) -/

/-- Writes the current generation into the staging cache as a costume package; the entry takes its length. Answers whether
that could be done: a key whose uses are spent leaves the cache without the costume (R264). -/
def State.cacheCurrent (s : State) (i g : Nat) : Bool × State :=
  match s.resident g i with
  | none => (true, s)
  | some r =>
    let img := s.packImage r.addr (s.readLE (r.addr + 0x24) 4)
    let e := s.entry i
    match s.sealPackage "LGCP" e.customer e.model e.gen e.costumeId e.wrapped img with
    | some (p, s) =>
      let s := s.setEntry i { s.entry i with imageLen := img.length, pages := ceilDiv img.length page, tables := img.take (fieldAt img 0x20 4) }
      (true, s.putCache i p)
    | none => (false, s.uncache i)

/-- A shard section: its record, then its arrays (R174, R316). -/
def Shard.bytes (h : Shard) (o : Bytes) : Bytes :=
  let w := if precOf o = 2 then 8 else 4
  let master := if precOf o = 1 then (h.master.zip h.lo).flatMap fun p => toBytes 4 p.1 ++ toBytes 4 p.2 else h.master.flatMap (toBytes w)
  let b := toBytes 8 h.kupd ++ toBytes 8 h.p1 ++ toBytes 8 h.p2 ++ toBytes 4 h.first ++ toBytes 4 h.count ++ toBytes 4 h.gen ++ zeros 28 ++
    master ++ h.mom1.flatMap (toBytes w) ++ h.mom2.flatMap (toBytes w)
  padTo b (alignUp 64 b.length)

/-- The checkpoint image of a job (R316). -/
def State.checkpointImage (s : State) (i : Nat) (j : Job) (img : Bytes) : Bytes :=
  let off := alignUp 64 (0x80 + img.length)
  let head := ascii "LGCK" ++ toBytes 2 1 ++ zeros 2 ++ toBytes 8 j.seed ++ toBytes 8 j.n ++ toBytes 8 j.exchanges ++
    toBytes 4 (s.entry i).gen ++ toBytes 1 j.sigma ++ zeros 1 ++ toBytes 2 j.clean ++ toBytes 2 j.grow ++ toBytes 2 j.thin ++
    toBytes 2 j.slots.1 ++ toBytes 2 j.slots.2 ++ toBytes 4 j.shards.length ++ toBytes 4 (s.jobP i) ++ toBytes 4 0x80 ++
    toBytes 4 off ++ padTo j.opt 64
  padTo (head ++ img) off ++ j.shards.flatMap fun h => h.bytes j.opt

/-- What is left of a span of addresses once another is taken out of it. -/
def cutSpan (u : Nat × Nat) (x : Nat × Nat) : List (Nat × Nat) :=
  let a := min (x.1 + x.2) u.1
  let b := max x.1 (u.1 + u.2)
  (if x.1 < a then [(x.1, a - x.1)] else []) ++ if b < x.1 + x.2 then [(b, x.1 + x.2 - b)] else []

/-- The first `n` bytes of a list of spans, as spans. -/
def takeSpans : Nat → List (Nat × Nat) → List (Nat × Nat)
  | _, [] => []
  | n, x :: r => if n = 0 then [] else (x.1, min n x.2) :: takeSpans (n - min n x.2) r

/-- Free staging space for a checkpoint of a costume, ascending: the CHECKPOINT granules (R368) less what the
checkpoints of other costumes hold. -/
def State.ckFree (s : State) (i : Nat) : List (Nat × Nat) :=
  let all := (s.modRuns.filter fun r => r.kind = 0x0D).flatMap fun r => (List.range r.count).map fun k => (granuleAddr 1 (r.first + k), 0x400_0000)
  ((s.costumes.ckAt.filter fun p => p.1 ≠ i).flatMap (·.2)).foldl (fun l u => l.flatMap (cutSpan u)) (sortPairs all)

/-- The checkpoint package of a costume in staging, none where there is none or a line of it is poisoned (R474). -/
def State.stagedCk (s : State) (i : Nat) : Option Bytes :=
  if ((Table.find s.costumes.ckAt i).getD []).any fun x => s.poisoned x.1 x.2 then none else Table.find s.costumes.ckpts i

/-- The image of the costume's current generation, from a resident copy or its cached package. -/
def State.currentImage (s : State) (i g : Nat) : Option Bytes :=
  match (s.resident g i).filter fun r => r.st = .resident with
  | some r => some (s.packImage r.addr (s.readLE (r.addr + 0x24) 4))
  | none => (s.cached i).bind fun c => s.openPackage "LGCP" c.bytes

/-- Takes a job's checkpoint (R315): the package goes to staging, and to storage where the request names it. Where the
costume's image is at hand neither in the stage nor in the cache, the checkpoint waits for it, and the job for the checkpoint. -/
def State.takeCheckpoint (s : State) (i : Nat) (q : Option CkReq) : State :=
  match s.job i with
  | none => s
  | some j =>
    match s.currentImage i j.stage with
    | none => s.setJob i { j with ckReq := q, ckDue := true }
    | some img =>
    let s := s.setJob i { j with ckReq := none, ckDue := false }
    let e := s.entry i
    match s.sealPackage "LGKP" e.customer e.model e.gen e.costumeId e.wrapped (s.checkpointImage i j img) with
    | none => match q with
      | some q => s.finish q.cmd 0x0304
      | none => s
    | some (p, t) =>
      let at_ := takeSpans p.length (t.ckFree i)
      if (at_.map (·.2)).foldl (· + ·) 0 < p.length then match q with
        | some q => s.finish q.cmd 0x0303
        | none => s
      else
        let t := at_.foldl (fun t x => t.unpoison x.1 x.2)
          ({ t with costumes := { t.costumes with ckpts := Table.put t.costumes.ckpts i p, ckAt := Table.put t.costumes.ckAt i at_ } }.mapJob i
            fun j => { j with ckStaged := true })
        match q with
        | none => t
        | some q =>
          if q.toStorage then
            ({ t with costumes := { t.costumes with ckLoc := Table.put t.costumes.ckLoc i (q.nvme, q.nsid, q.slba, p.length) } }.mapJob i fun j => { j with ckStored := true }).nvmeIssue
              true q.nvme q.nsid q.slba p.length p (.checkpoint q.cmd.1 q.cmd.2 i)
          else (t.audit i 0x09 0 e.gen p.length (some q.cmd.1, e.customer)).finish q.cmd 0 p.length

/-! ### The shadow region (R296, R319, R463) -/

/-- A tuning pass copies its job's buffer to the shadow region (R296 step 4); poison goes with it (R472). -/
def State.shadowCopy (s : State) (i : Nat) (j : Job) (c : StageCfg) : State :=
  let n := 64 + s.bufLen i
  let t := (s.writeBytes c.shadow (s.readBytes j.line n)).carryPoison j.line c.shadow n
  t.setStage j.stage { t.stage j.stage with shadowOf := some i }
/-- And the way back (R319). -/
def State.shadowBack (s : State) (i : Nat) (j : Job) (c : StageCfg) : State :=
  let n := 64 + s.bufLen i
  (s.writeBytes j.line (s.readBytes c.shadow n)).carryPoison c.shadow j.line n

/-- The shadow region no longer holds a job's buffer (R463). -/
def State.dropShadow (s : State) (i : Nat) (j : Job) : State :=
  match (s.stage j.stage).cfg with
  | some c =>
    if (s.stage j.stage).shadowOf ≠ some i then s
    else (s.zeroRange c.shadow (min c.shadowLen (64 + s.bufLen i))).setStage j.stage { s.stage j.stage with shadowOf := none }
  | none => s

/-- A job's window is discarded: its buffer is reset, and with it the copy in the shadow region (R463). A pass that still runs
goes on with its SCALE: the line keeps the σ of that, and a replay starts from the buffer as it now is. -/
def State.discardBuf (s : State) (i : Nat) (j : Job) : State :=
  if !j.running then (s.resetBuf i j j.sigma).dropShadow i j
  else
    let s := s.resetBuf i j (s.bufSigma j)
    match (s.stage j.stage).cfg with
    | some c => if (s.stage j.stage).shadowOf = some i then s.shadowCopy i j c else s
    | none => s

/-! ### Closing (R285, R320, R336, R384, R463) -/

/-- TUNE_OPEN commands whose checkpoint is being read, by handle and stage, end with a status. -/
def State.endRestores (s : State) (which : Nat → Nat → Bool) (status : Nat) : State :=
  s.storage.ops.foldl (fun s o => match o.purpose with
    | .restore q id p _ => if which (fieldAt p 0 4) (fieldAt p 4 1) then s.finish (q, id) status else s
    | _ => s) s

/-- Completes the job's first feed with the step's loss, sample count and index (R301, R431). `cut` says that the step has not
completed, so that it is still the job's next one. -/
def State.endFeed (s : State) (i status : Nat) (cut : Bool := false) : State :=
  match s.job i with
  | none => s
  | some j =>
    match j.feeds with
    | [] => s
    | f :: r =>
      let loss := (rowSum (j.losses.map fun w => (w.toNat, 0))).1
      let s := s.setJob i { j with feeds := r, losses := [], samples := 0, passIdx := 0, passes := [] }
      s.deliver j.stage f.cmd (done status (loss % 2 ^ 32 + j.samples % 2 ^ 32 * 2 ^ 32) (if cut then j.n else j.n - 1))

/-- The step of a job's first feed has completed, and its window's end is still to come. -/
def Job.stepDone (j : Job) : Bool := 0 < j.passIdx && j.passes.isEmpty && !j.running

/-- Every feed of a job ends with a status, one whose step has completed with its loss. -/
def State.endFeeds (s : State) (i status : Nat) : State :=
  match s.job i with
  | none => s
  | some j =>
    let s := if j.stepDone then s.endFeed i status else s
    match s.job i with
    | none => s
    | some j => (j.feeds.foldl (fun s f => s.finish f.cmd status) s).setJob i { j with feeds := [], passes := [], losses := [], samples := 0, passIdx := 0 }

/-- The command that ends a stage's work, none where the module itself quiesces the stage. -/
def State.quiesceCmd (s : State) (g : Nat) : Option CmdRef :=
  match (s.stage g).why with
  | .command | .unload => (s.stage g).waiters.head?
  | .rig => s.rig.bind (·.cmd)
  | .fence | .remove => none

/-- The command that closes a job: a TUNE_CLOSE, a COSTUME_RETIRE, or what quiesces its stage. -/
def State.closer (s : State) (i : Nat) (j : Job) : Option CmdRef :=
  match j.closing with
  | some (_, some c) => some c
  | _ => if (s.entry i).st = 3 then (s.entry i).retire else if (s.stage j.stage).st = 3 then s.quiesceCmd j.stage else none

/-- A job closes with a status: its feeds and its pending checkpoint end with it, its window is discarded, its ring
left, its buffer, shadow copy and optimizer state gone. -/
def State.closeJob (s : State) (i status : Nat) : State :=
  match s.job i with
  | none => s
  | some j =>
    let s := (s.leaveRing i status).endFeeds i status
    let s := match j.ckReq with
      | some q => s.finish q.cmd (if status = 0 then 0x0302 else status)
      | none => s
    let s := match j.closing with
      | some (_, some c) => s.finish c 0 j.updates
      | _ => s
    let s := if j.active then s.zeroRange j.line (64 + s.bufLen i) else s
    let s := (s.dropShadow i j).releaseBuffers i
    let s := s.setEntry i { s.entry i with tuning := false }
    let s := s.audit i 0x0A j.stage (s.entry i).gen j.updates (s.whoOf (s.closer i j))
    { s with jobs := Table.erase s.jobs i }.activateAll

/-! ### Windows (R312, R313, R342) -/

/-- A word of an F32 buffer times 2^k. -/
def scaleWord (k : Int) (w : Nat) : Nat := Fp.flush (Fp.mul .f32 0 w (Fp.round .f32 0 false 1 k false).1).1

/-- The words of a buffer under the job's σ: where its SIGMA is another, they are multiplied and it is set (R313). -/
def State.rescaleBuf (s : State) (i : Nat) (j : Job) : State :=
  let old := s.bufSigma j
  if old = j.sigma then s
  else
    let s := (List.range (s.bufLen i / 4)).foldl (fun s k =>
      s.writeLE (j.gbuf + 4 * k) 4 (scaleWord ((j.sigma : Int) - old) (s.readLE (j.gbuf + 4 * k) 4))) s
    s.setLine j (s.samples j) (s.steps j) j.sigma

/-- The buffer at a boundary: reset (R313 step 6), discarded, or kept by an absent member and rescaled when σ changes (R342).
While a pass of the member still runs, its additions are under the old σ: all words are rescaled when it has completed. -/
def State.settleBuf (s : State) (i : Nat) (j : Job) (keep : Bool) : State :=
  if !keep then (if j.verdict = 0 then s.resetBuf i j j.sigma else s.discardBuf i j)
  else if j.running then s
  else s.rescaleBuf i j

/-- A job is at a window boundary. -/
def Job.atBoundary (j : Job) : Bool := j.window = .open && j.wsteps = 0 && !j.running && j.passes.isEmpty && !j.updating

/-- The exchange of a count of control frames is the latest decided one, which late frames may still be answered for, or a
later one (R330, R350). -/
def Ring.recent (r : Ring) (key : Nat) : Bool :=
  match r.lastVerdict with
  | some (x, _) => x % 2 ^ 32 ≤ key / 256
  | none => true

/-- The exchange of a ring closes (R355, R349): counters, and what a boundary brings: FORM, leaving. -/
def State.closeExchange (s : State) (i : Nat) : State :=
  match (s.job i).bind Job.member with
  | none => s
  | some r =>
    let s := if r.present = some false then s.ringAdd i 0 1 else s
    let s := s.mapRing i fun r => { r with
      opened := false, late := false, present := none, final := [], sent := [], done := [], fromOvf := false
      overflow := false, attempt := 0, seen := none, formed := false, formsIn := 0, folded := false, scanBad := false, misord := false, lap1Sent := false
      decided := none, ckpt := false, forwarded := [], cseq := r.cseq.filter fun p => r.recent p.1
      stat := { r.stat with xnum := (r.stat.xnum + 1) % 2 ^ 32 } }
    let s := s.endWraps
    match s.job i with
    | none => s
    | some j => if r.leave && j.atBoundary then s.leaveRing i 0 else if r.formDue then s.sendForm i else s

/-- The status with which a PAUSED job's feeds end (R312, R333). -/
def Job.pauseStatus (j : Job) : Nat := if j.verdict = 0x0104 then 0x0104 else 0x0404

/-- A checkpoint that is due or asked for is taken. -/
def State.takePending (s : State) (i : Nat) : State :=
  match s.job i with
  | none => s
  | some j => if j.ckReq.isSome || j.ckDue then s.takeCheckpoint i j.ckReq else s

/-- A PAUSED job's feeds end, but for one whose step still runs. Once none does, the job stands at a boundary, and a pending
checkpoint is taken (R315). -/
def State.endPaused (s : State) (i : Nat) : State :=
  match s.job i with
  | none => s
  | some j =>
    if !j.paused then s
    else if j.running then (j.feeds.drop 1).foldl (fun s f => s.finish f.cmd j.pauseStatus) (s.setJob i { j with feeds := j.feeds.take 1 })
    else ((s.endFeeds i j.pauseStatus).mapJob i fun j => { j with window := .open, wsteps := 0, late := [] }).takePending i

/-- The end of a window once its decision has been carried out (R313 step 6). For a member whose own window still
runs, the exchange closes and the window ends later (R342). `sealed` says that the new generation's package could be
written; where not, the window's last feed ends with COSTUME_KEY_FAIL (R264; DESIGN CHOICE, log 22). -/
def State.boundary (s : State) (i : Nat) (sealed : Bool := true) : State :=
  match s.job i with
  | none => s
  | some j =>
    let absent := match j.member with
      | some r => r.present != some true
      | none => false
    let wantCk := match j.member with
      | some r => r.ckpt
      | none => j.ckReq.isSome
    let st := if j.verdict ≠ 0 then j.verdict else if !sealed then 0x0304 else if absent then 0x0402 else 0
    let ended := j.window = .closing
    let s := s.mapJob i fun j => { j with updating := false, exchanges := j.exchanges + 1, windows := j.windows + 1, skipped := 0
                                          paused := j.paused || j.verdict = 0x0404 || j.verdict = 0x0104 }
    let s := if wantCk then s.takeCheckpoint i j.ckReq else s
    let s := s.settleBuf i j (absent && j.verdict = 0)
    let s := if ended then (s.mapJob i fun j => { j with window := .open, wsteps := 0 }).endFeed i st
      else s.mapJob i fun j => { j with late := j.late ++ [st] }
    let s := (s.endPaused i).closeExchange i
    match s.job i with
    | some j => match j.closing with
      | some (c, _) => if ended || !j.started then s.closeJob i c else s
      | none => s
    | none => s

/-- A decision takes effect (R312): σ and CLEAN change; an applied update makes every owned shard due. -/
def State.decided (s : State) (i : Nat) (apply : Bool) (sigma clean status : Nat) : State :=
  match s.job i with
  | none => s
  | some j =>
    let j := { j with sigma := sigma, clean := clean, verdict := status }
    if !apply then (s.setJob i j).boundary i
    else
      let due := (j.shards.filter fun h => 0 < h.count).map (·.die)
      s.setJob i { j with updating := true, skipped := 0, left := due, unwritten := List.range (s.jobBlocks i) }

/-- The end of a window (R313): the fold and the scan; with one member the decision, with a ring the member's indications.
A buffer with a poisoned line is lost: the job waits for its rollback (R318). -/
def State.endWindow (s : State) (i : Nat) (j : Job) : State :=
  if s.poisoned j.line (64 + s.bufLen i) then s.setJob i { j with broken := true }
  else
  let s := s.fold i j
  let bad := s.scan i j
  match j.member with
  | some _ => s.mapRing i fun r => { r with folded := true, scanBad := bad }
  | none =>
    let d := decision (bad || s.nonfinite j) j.sigma j.clean (s.steps j) j.grow
    s.decided i d.1 d.2.1 d.2.2.1 d.2.2.2
/-- PUBLICATION_SWITCH (R181): every block is written, so the other buffer becomes current under the next generation,
the package goes to the staging cache, and the window ends. -/
def State.switchBuffers (s : State) (i : Nat) (j : Job) : State :=
  let gen := ((s.entry i).gen + 1) % 2 ^ 32
  let s := (s.tuneStages i j).foldl (fun s g =>
    match s.resident g i with
    | some r => s.setResident { r with addr := r.alt, alt := r.addr, gen := gen }
    | none => s) s
  let s := s.setEntry i { s.entry i with gen := gen }
  let s := s.mapJob i fun j => { j with gen := gen, updates := j.updates + 1 }
  let c := s.cacheCurrent i j.stage
  (c.2.audit i 0x08 j.stage gen j.skipped (none, 0)).boundary i c.1

/-- TUNING_PASS_COMPLETE (R296 steps 5 and 6). -/
def State.passDone (s : State) (i : Nat) (j : Job) : State :=
  let rows := ((j.passes.headD []).map fun q => q.countP fun w => bit w 31).foldl (· + ·) 0
  let left := j.passes.drop 1
  let last := left.isEmpty
  let s := s.setLine j (satAdd 32 (s.samples j) rows).1 (s.steps j + b2n last) (s.bufSigma j)
  let j := { j with running := false, passes := left, passIdx := j.passIdx + 1, samples := j.samples + rows
                    n := j.n + b2n last, wsteps := j.wsteps + b2n last }
  let s := (s.setJob i j).rescaleBuf i j
  if j.paused then match j.closing with
    | some (c, _) => s.closeJob i c
    | none => s.endPaused i
  else if !last then s
  else
    let early := j.closing.isSome && j.member.isNone && (match j.closing with
      | some (0, _) => true
      | _ => false)
    match j.closing with
    | some (c, _) => if early then s.setJob i { j with window := .closing } else if j.updating then s else s.closeJob i c
    | none =>
      if j.wsteps < j.thin then s.endFeed i 0
      else if !j.late.isEmpty then
        let st := j.late.headD 0
        let s := (s.setJob i { j with late := j.late.drop 1, wsteps := 0 }).endFeed i (if st = 0 then 0x0402 else st)
        if (j.member.map (·.leave)).getD false && !j.updating then s.leaveRing i 0 else s
      else s.setJob i { j with window := .closing }
def execTuningPassComplete (job : Nat) (s : State) : Res :=
  match s.job job with
  | none => .next s
  | some j =>
    let on := match (s.stage j.stage).step with
      | some t => t.pass = some job
      | none => false
    guarded (j.running && !on && !j.broken) s (s.passDone job j)

/-! ### Rotation and rollback (R291, R318) -/

/-- JOB_ROTATION (R291). -/
def execJobRotation (job : Nat) (s : State) : Res :=
  match s.job job with
  | none => .next s
  | some j =>
    let others := s.jobs.any fun x => x.1 ≠ job && !x.2.active && x.2.stage = j.stage
    guarded (j.active && 8 ≤ j.windows && j.atBoundary && j.ring.isNone && others) s
      (let t := s.stamp
       ((t.2.setJob job { j with number := none, windows := 0, order := t.1 }).releaseBuffers job).activateAll)

/-- The shard sections of a checkpoint image, in their order; their dies are still to be given. -/
def ckShards (b : Bytes) (o : Bytes) (off : Nat) : Nat → List Shard
  | 0 => []
  | n + 1 =>
    let cnt := fieldAt b (off + 0x1C) 4
    let w := if precOf o = 2 then 8 else 4
    let mw := if precOf o = 1 then 8 else w
    let at1 := off + 64
    let at2 := at1 + mw * 256 * cnt
    let at3 := at2 + (if optOf o = 0 then 0 else w * 256 * cnt)
    let fin := at3 + (if optOf o = 2 then w * 256 * cnt else 0)
    let arr (a st w : Nat) : List Nat := (List.range (256 * cnt)).map fun p => fieldAt b (a + st * p) w
    { die := 0, kupd := fieldAt b off 8, p1 := fieldAt b (off + 8) 8, p2 := fieldAt b (off + 0x10) 8
      first := fieldAt b (off + 0x18) 4, count := cnt, gen := fieldAt b (off + 0x20) 4
      master := arr at1 mw w, lo := if precOf o = 1 then arr (at1 + 4) 8 4 else []
      mom1 := if optOf o = 0 then [] else arr at2 w w, mom2 := if optOf o = 2 then arr at3 w w else [] } ::
      ckShards b o (alignUp 64 fin) n

/-- The optimizer state of one block, as a shard of one block. -/
def blockState (l : List Shard) (k : Nat) : Option Shard :=
  (l.find? fun h => h.first ≤ k && k < h.first + h.count).map fun h =>
    let cut (x : List Nat) : List Nat := (x.drop (256 * (k - h.first))).take 256
    { h with first := k, count := 1, master := cut h.master, lo := cut h.lo, mom1 := cut h.mom1, mom2 := cut h.mom2 }

/-- A shard from the states of its blocks. -/
def Shard.joinAll (fresh : Shard) (l : List Shard) : Shard :=
  match l with
  | [] => fresh
  | h :: _ =>
    { fresh with
      kupd := h.kupd, p1 := h.p1, p2 := h.p2, gen := h.gen, master := l.flatMap (·.master), lo := l.flatMap (·.lo)
      mom1 := l.flatMap (·.mom1), mom2 := l.flatMap (·.mom2) }

/-- The sections of a checkpoint over the dies of a stage: one for each die in their order, or, where the stage has another
number of dies, their blocks divided anew as R171 divides them. A die without blocks has the counts of the first section. -/
def divideShards (dies : List Nat) (l : List Shard) : List Shard :=
  if l.length = dies.length then (l.zip dies).map fun x => { x.1 with die := x.2 }
  else match l with
    | [] => []
    | h :: _ =>
      let n := (l.map (·.count)).foldl (· + ·) 0
      dies.zipIdx.map fun d =>
        let a := shareStart n dies.length d.2
        let c := shareStart n dies.length (d.2 + 1) - a
        let empty : Shard := { h with die := d.1, first := h.first + a, count := c, master := [], lo := [], mom1 := [], mom2 := [] }
        empty.joinAll ((List.range c).filterMap fun t => blockState l (h.first + a + t))

/-- A job restored from a checkpoint image (R317 steps 4 and 5), its record replaced when the command gives one. -/
def Job.restore (j : Job) (b : Bytes) (dies : List Nat) (opt : Option Bytes) : Job :=
  let o := opt.getD (slice b 0x40 64)
  { j with
    n := fieldAt b 0x10 8, exchanges := fieldAt b 0x18 8, gen := fieldAt b 0x20 4
    clean := fieldAt b 0x26 2, sigma := fieldAt b 0x24 1, thin := bits (fieldAt b 0x28 4) 16 7, grow := fieldAt b 0x28 2
    ckSlot := some (fieldAt b 0x2C 2, fieldAt b 0x2E 2), opt := o
    shards := divideShards dies (ckShards b (slice b 0x40 64) (fieldAt b 0x3C 4) (fieldAt b 0x30 4)) }

/-- A restored image takes the place of a resident one, in a buffer that no step leases, with the pages that this leaves
vacated. Where none is free, it is reloaded once pages are, as R475 reloads one. DESIGN CHOICE, log 30. -/
def State.restoreAt (s : State) (r : Resident) (img : Bytes) : State :=
  let free (a : Nat) : Bool := a ≠ 0 && !s.leasedAt r.stage a && img.length ≤ r.pages * page
  if free r.addr then
    let s := s.placeImage r.addr img
    if free r.alt then (s.placeImage r.alt img).setResident r else (s.vacate r r.alt).setResident { r with alt := 0 }
  else if free r.alt then ((s.placeImage r.alt img).vacate r r.addr).setResident { r with addr := r.alt, alt := 0 }
  else
    let n := ceilDiv img.length page
    match s.findRun r.stage n with
    | some a => (((s.placeImage a img).vacate r r.addr).vacate r r.alt).setResident { r with addr := a, alt := 0, pages := n }
    | none => s.reload { r with pages := n } (r.bufs.map fun a => ⟨r.stage, r.index, a, r.pages⟩) none none

/-- The image embedded in a checkpoint becomes the serving copy of every stage that runs or follows the job: both
its buffers there, and the package in the cache. -/
def State.restoreImage (s : State) (i : Nat) (j : Job) (img : Bytes) : State :=
  let e := s.entry i
  let s := s.setEntry i { e with gen := j.gen, imageLen := img.length, pages := ceilDiv img.length page, tables := img.take (fieldAt img 0x20 4) }
  let s := match s.sealPackage "LGCP" e.customer e.model j.gen e.costumeId e.wrapped img with
    | some (p, s) => s.putCache i p
    | none => s.uncache i
  (j.stage :: j.follow).foldl (fun s g =>
    match s.resident g i with
    | some r => if r.st = .resident then s.restoreAt { r with gen := j.gen } img else s
    | none => s) s

/-- The embedded costume image of a checkpoint image. -/
def ckImage (b : Bytes) : Bytes := slice b (fieldAt b 0x38 4) (fieldAt b (fieldAt b 0x38 4 + 0x24) 4)

/-- The step of a job's first feed has begun and not completed. -/
def Job.cut (j : Job) : Bool := j.running || !j.passes.isEmpty

/-- The rollback of a job from a checkpoint package: the feed ends with PARITY_UNRECOVERED. -/
def State.rollbackTo (s : State) (i : Nat) (p : Bytes) : State :=
  match s.job i, (s.openPackage "LGKP" p).filter fun b => headStatus (ckImage b) = 0 with
  | some j, some b =>
    let s := (s.endFeed i 0x0702 j.cut).dropShadow i j
    let j' := (((s.job i).getD j).restore b (s.stageDies j.stage) none)
    let j' := { j' with passes := [], passIdx := 0, losses := [], samples := 0, running := false, broken := false, window := .open
                        wsteps := 0, late := [], updating := false, left := [], unwritten := [] }
    let r := s.random 32
    let s := r.2.setJob i { j' with ring := j'.ring.map fun x => { x with salt := r.1 } }
    let s := s.restoreImage i j' (ckImage b)
    let s := if j'.active then s.resetBuf i j' j'.sigma else s
    if j'.member.isSome then s.sendForm i else s
  | some j, none =>
    let s := ((s.endFeed i 0x0702 j.cut).dropShadow i j).mapJob i fun j =>
      { j with paused := true, broken := false, running := false, window := .open, wsteps := 0, updating := false, left := [], unwritten := [] }
    match s.job i with
    | some j => (if j.active then s.resetBuf i j j.sigma else s).endPaused i
    | none => s
  | none, _ => s

/-- TUNING_ROLLBACK (R318): from the job's latest checkpoint in staging, failing that on storage; PAUSED without one. A checkpoint
that an earlier job of the costume has left is none of this one's. -/
def execTuningRollback (job : Nat) (s : State) : Res :=
  match s.job job with
  | none => .next s
  | some j =>
    guarded (j.broken && (s.storage.ops.all fun o => o.purpose ≠ .rollback job)) s
      (match (s.stagedCk job).filter fun _ => j.ckStaged, (Table.find s.costumes.ckLoc job).filter fun _ => j.ckStored with
       | some p, _ => s.rollbackTo job p
       | none, some (c, ns, b, len) => s.nvmeIssue false c ns b len [] (.rollback job)
       | none, none => s.rollbackTo job [])

/-! ### Commands -/

/-- The costume's vectors and heads are all declared by the stage with their lengths and shapes (R294). -/
def declared (c : StageCfg) (b : Bytes) : Bool :=
  let has (l : List (Nat × Nat)) (k n : Nat) : Bool := l.any fun p => p.1 = k && p.2 = n
  ((List.range (imgOps b)).all fun k => let e := imgOp b k; (e.1 = noParam && e.2.1 = noParam) || has c.ops k e.2.2) &&
    ((List.range (imgQs b)).all fun k => let e := imgQ b k; (e.1 = noParam && e.2.1 = noParam) || has c.qs k e.2.2) &&
    (List.range (imgHeads b)).all fun h => let e := imgHead b h; c.heads.any fun x => x.1 = h && x.2.1 = e.k && x.2.2 = e.n

/-- The optimizer record of TUNE_OPEN, where one is given, is in range (R173, R292). -/
def openRange (k : Call) : Bool := (bit (k.arg 7 1) 0 && !bit (k.arg 7 1) 1) || optOk (slice k.data 0 64)

/-- Checks of TUNE_OPEN before a checkpoint is read. A second job on a costume ends with QUEUE_FULL (R290 gives no
status; DESIGN CHOICE, log 23). -/
def State.openStatus (s : State) (k : Call) : Nat :=
  let g := k.arg 4 1
  let i := handleIdx (k.arg 0 4)
  let follow := (List.range 16).filter fun h => bit (k.arg 0xA 2) h
  match (s.stage g).cfg with
  | none => if s.stageFor k g = 0 then 0x0501 else s.stageFor k g
  | some c =>
    let bad := ((g :: follow).map fun h => if s.stageFor k h ≠ 0 then s.stageFor k h else if (s.stage h).model.isNone then 0x0801 else
      s.resolve k.principal (k.arg 0 4) (some (s.stageModel h))).find? (· ≠ 0)
    if !openRange k then 0x0104
    else match bad with
      | some x => x
      | none =>
        let b := (s.entry i).tables
        let n := (s.entry i).pages
        let extra (h : Nat) : Nat := match s.resident h i with
          | some r => if r.pinned || !r.pins.isEmpty then r.pages else 2 * r.pages
          | none => 2 * n
        if (s.job i).isSome then 0x0802
        else if !declared c b then 0x0104
        else if (g :: follow).any fun h => !s.shareOk h (extra h) then 0x0303
        else 0

/-- The initial optimizer state of a die's shard: the serving values, exact, as master, and moments of 0. -/
def State.newShard (s : State) (i : Nat) (j : Job) (img : Bytes) (die : Nat) : Shard :=
  let sh := s.dieShare i j die
  let o := j.opt
  let wide := precOf o = 2
  let z := List.replicate (256 * sh.2) 0
  let vals := (List.range sh.2).flatMap fun t =>
    match placeOf img (sh.1 + t) with
    | .vec off _ => (List.range 256).map fun e =>
      let w := imgElem img
      let c := fieldAt img (off + w * e) w
      if 256 * (sh.1 + t) + e < imgPV img then (if wide then plainToF64 (if w = 2 then tyW16 else tyE8) c else plainToF32 (if w = 2 then tyW16 else tyE8) c) else 0
    | .head el hd _ =>
      let h := fieldAt img hd 4
      (unpackBrick tyN4 (slice img el 128)).map fun c =>
        if hdrE h = 0 || hdrAllZero h then 0 else ((decBricked tyN4 c (hdrE h) 0).code (wfmt o) c).1
  { die := die, kupd := 0, p1 := oneOf o, p2 := oneOf o, first := sh.1, count := sh.2, gen := j.gen, master := vals
    lo := if precOf o = 1 then z else [], mom1 := if optOf o = 0 then [] else z, mom2 := if optOf o = 2 then z else [] }

/-- A job opens (R292), fresh or restored from a checkpoint image. The tuning stage is none of the stages that follow
(R290), whatever the command's mask says of it (DESIGN CHOICE, log 23). Every die of the stage raises the flags of the
scalar conversions, also one that owns no block of the job (R179; DESIGN CHOICE, log 53). -/
def State.openJob (s : State) (k : Call) (ck : Option Bytes) (img : Bytes) : State :=
  let i := handleIdx (k.arg 0 4)
  let g := k.arg 4 1
  let t := s.stamp
  let e := s.entry i
  let given := if bit (k.arg 7 1) 0 && !bit (k.arg 7 1) 1 then none else some (slice k.data 0 64)
  let j : Job :=
    { handle := k.arg 0 4, customer := k.principal, stage := g, number := none, order := t.1, seed := k.arg 0x10 8
      thin := max 1 (k.arg 5 1), grow := if k.arg 8 2 = 0 then 2000 else k.arg 8 2
      sigma := if k.arg 6 1 = 0xFF then 16 else k.arg 6 1, clean := 0, n := 0, exchanges := 0, windows := 0, updates := 0, skipped := 0
      follow := (List.range 16).filter (fun h => bit (k.arg 0xA 2) h && h ≠ g), opt := given.getD [], paused := false, feeds := [], passes := []
      passIdx := 0, running := false, due := [], landed := [], losses := [], samples := 0, closing := none, broken := false, verdict := 0, gbuf := 0, gen := e.gen
      wKey := e.wrapped, shards := [], window := .open, wsteps := 0, late := [], updating := false, left := [], unwritten := []
      ckReq := none, ckDue := false, ckStaged := ck.isSome && !bit (k.arg 0x18 1) 4, ckStored := ck.isSome && bit (k.arg 0x18 1) 4
      ring := none, ckSlot := none }
  let dies := s.stageDies g
  let s := t.2
  let r := match ck with
    | some b =>
      let j := j.restore b dies given
      let s := if j.ckStored then
          { s with costumes := { s.costumes with ckLoc := Table.put s.costumes.ckLoc i (k.arg 0x18 1 % 16, k.arg 0x1C 4, k.arg 0x20 8, k.arg 0x28 4) } }
        else s
      (j, s.restoreImage i j (ckImage b))
    | none => ({ j with shards := dies.map (s.newShard i j img) }, s)
  let s := (r.2.setJob i r.1).setEntry i { r.2.entry i with tuning := true }
  let s := dies.foldl (fun s d => s.setDie d { s.die d with ueFlags := (s.die d).ueFlags ||| openFlags r.1.opt }) s
  let s := s.activate i
  let num := ((s.job i).bind (·.number))
  let s := s.costumes.res.foldl (fun s x => if x.index = i && x.st = .resident && s.tuneHolds x.stage i then s.setResident { x with tuneHeld := true } else s) s
  (s.audit i 0x07 g (s.entry i).gen (num.getD 0) k.who).finish k.ref 0 (b2n num.isSome)

/-- R317 on a checkpoint package, then the job opens. RES0 fields and the optimizer record belong to step 3 (R9); a brick header
of its image that fails R43 ends the command with its status, as it ends a load (R49; DESIGN CHOICE, log 30). -/
def State.restoreJob (s : State) (k : Call) (p : Bytes) : State :=
  let i := handleIdx (k.arg 0 4)
  let e := s.entry i
  match s.authentic p with
  | none => s.finish k.ref 0x0304
  | some b =>
    let img := ckImage b
    if pkgCustomer p ≠ k.principal then s.finish k.ref 0x0605
    else if !packageOk "LGKP" p || slice b 0 4 != ascii "LGCK" || fieldAt b 4 2 ≠ 1 || fieldAt p 8 8 ≠ e.costumeId || pkgModel p ≠ e.model ||
        fieldAt b 0x34 4 ≠ imgP e.tables || !imageOk img img.length || !sameLayout img e.tables ||
        fieldAt b 6 2 ≠ 0 || fieldAt b 0x25 1 ≠ 0 || bits (fieldAt b 0x28 4) 23 9 ≠ 0 || !optOk (slice b 0x40 64) ||
        !(1 ≤ fieldAt b 0x2C 2 && fieldAt b 0x2E 2 < fieldAt b 0x2C 2) then s.finish k.ref 0x0104
    else if headStatus img ≠ 0 then s.finish k.ref (headStatus img)
    else if !s.canSeal e.customer e.wrapped then s.finish k.ref 0x0304
    else s.openJob k (some b) img

/-- TUNE_OPEN (R292, R317). While a load of the costume into its tuning stage is under way, it waits for it. -/
def doTuneOpen : Start := fun k s =>
  let i := handleIdx (k.arg 0 4)
  let st := s.openStatus k
  if st ≠ 0 then s.finish k.ref st
  else if bit (k.arg 7 1) 0 then
    if bit (k.arg 0x18 1) 4 then
      if s.nvmeOk (k.arg 0x18 1 % 16) (k.arg 0x1C 4) (k.arg 0x20 8) (k.arg 0x28 4) then
        s.nvmeIssue false (k.arg 0x18 1 % 16) (k.arg 0x1C 4) (k.arg 0x20 8) (k.arg 0x28 4) [] (.restore k.qp k.id k.params k.data)
      else s.finish k.ref 0x0104
    else match s.stagedCk i with
      | some p => s.restoreJob k p
      | none => s.finish k.ref (if (Table.find s.costumes.ckpts i).isSome then 0x0702 else 0x0304)
  else match s.currentImage i (k.arg 4 1) with
    | some img => s.openJob k none img
    | none =>
      let t := match s.resident (k.arg 4 1) i with
        | none => (s.startLoad (k.arg 4 1) i false k.who).getD (s.makeSpace (k.arg 4 1) (s.entry i).pages)
        | some r => s.adopt r
      t.hold k false
def execTuneOpen (c : HostCmd) (s : State) : Res := s.command c 0x38 doTuneOpen

/-- The sequences of a feed, none when it is not laid out as R431 gives. -/
def parseFeed (b : Bytes) : Nat → Nat → List (List Nat) → Option (List (List Nat))
  | 0, _, _ => none
  | f + 1, off, acc =>
    if off = b.length then some acc.reverse
    else
      let n := fieldAt b off 4
      if n = 0 || 8192 < n || b.length < off + 4 + 4 * n then none
      else parseFeed b f (off + 4 + 4 * n) (((List.range n).map fun t => fieldAt b (off + 4 + 4 * t) 4) :: acc)

/-- Resolves a command on a job (R268): a status, 0 with the job's index. -/
def State.jobStatus (s : State) (k : Call) : Nat :=
  let a := s.resolve k.principal (k.arg 0 4) none
  if a ≠ 0 then a else if (s.job (handleIdx (k.arg 0 4))).isNone then 0x0302 else 0

/-- TUNE_FEED (R431). -/
def doTuneFeed : Start := fun k s =>
  let i := handleIdx (k.arg 0 4)
  let a := s.jobStatus k
  match s.job i with
  | none => s.finish k.ref (if a = 0 then 0x0302 else a)
  | some j =>
    let g := s.stageFor k j.stage
    let max := ((s.stage j.stage).cfg.map (·.maxTrows)).getD 0
    if a ≠ 0 then s.finish k.ref a
    else if g ≠ 0 then s.finish k.ref g
    else match parseFeed k.data (k.data.length / 4 + 1) 0 [] with
      | none => s.finish k.ref 0x0104
      | some l =>
        if (l.map List.length).foldl (· + ·) 0 ≠ k.arg 4 4 || l.any fun q => max < alignUp 16 q.length then s.finish k.ref 0x0104
        else if j.paused then s.finish k.ref (if j.verdict = 0x0104 then 0x0104 else 0x0404)
        else (s.noteIdle j.stage).setJob i { j with feeds := j.feeds ++ [⟨k.ref, k.arg 4 4, l⟩] }
def execTuneFeed (c : HostCmd) (s : State) : Res := s.command c 0x39 doTuneFeed

/-- TUNE_CHECKPOINT (R315): at once at a boundary of a job outside a ring, else at the next one. -/
def doTuneCheckpoint : Start := fun k s =>
  let i := handleIdx (k.arg 0 4)
  let a := s.jobStatus k
  let q : CkReq := ⟨k.ref, bit (k.arg 4 1) 0, k.arg 5 1, k.arg 8 4, k.arg 0x10 8⟩
  match s.job i with
  | none => s.finish k.ref (if a = 0 then 0x0302 else a)
  | some j =>
    if a ≠ 0 then s.finish k.ref a
    else if q.toStorage && !s.nvmeOk q.nvme q.nsid q.slba 1 then s.finish k.ref 0x0104
    else if j.ckReq.isSome then s.hold k false
    else if j.atBoundary && (j.member.isNone || j.paused) then s.takeCheckpoint i (some q)
    else s.setJob i { j with ckReq := some q }
def execTuneCheckpoint (c : HostCmd) (s : State) : Res := s.command c 0x3A doTuneCheckpoint

/-- Feeds that have not started end as their job is to close: with the status of a retirement (R285 step 4), else with
CANCELLED (DESIGN CHOICE, log 23). -/
def State.dropFeeds (s : State) (i status : Nat) : State :=
  match s.job i with
  | none => s
  | some j =>
    let keep := if j.started then j.feeds.take 1 else []
    let gone := if j.started then j.feeds.drop 1 else j.feeds
    gone.foldl (fun s f => s.post f.cmd ⟨status, 0, 0, false, false, status = 0⟩) (s.setJob i { j with feeds := keep })

/-- A decided update of which nothing has been carried out: no shard updated (R313 step 4), and no block written where the
member owns none. -/
def State.untouched (s : State) (i : Nat) (j : Job) : Bool :=
  let due := ((j.shards.filter fun h => 0 < h.count).map (·.die)).length
  j.left.length = due && (0 < due || j.unwritten.length = s.jobBlocks i)

/-- A job closes once its current step has completed; with one member a window in progress ends early first, and a member
of a ring is absent until it leaves (R356). At a window's end nothing is applied any more, and a retirement also undoes a decision
of which no step has begun; an update that is being carried out is published first (R320). -/
def State.requestClose (s : State) (i status : Nat) (c : Option CmdRef) : State :=
  let s := s.dropFeeds i status
  match s.job i with
  | none => s
  | some j =>
    let ring := j.ring.map fun r => if r.opened then { r with present := some false } else r
    let s := s.setJob i { j with closing := some (status, c), ring := ring }
    if j.started then s
    else if j.updating then (if status ≠ 0 && s.untouched i j then s.closeJob i status else s)
    else if j.window = .closing then if status ≠ 0 || j.member.isSome then s.closeJob i status else s
    else if status = 0 && 0 < j.wsteps && j.member.isNone && !j.paused then s.mapJob i fun j => { j with window := .closing }
    else s.closeJob i status

/-! ### Retirement (R285, R286) -/

/-- RETIRE_COMPLETE (R286): with every lease released and the job closed, steps 5 and 6 of R285. -/
def State.retired (s : State) (i : Nat) : State :=
  let e := s.entry i
  let who : Who := match e.retire with
    | some c => (some c.1, e.customer)
    | none => (none, 0)
  let s := s.costumes.res.foldl (fun s r =>
    if r.index ≠ i then s
    else
      let s := s.scrubOut r who
      (s.zeroImage r).dropResident r.stage i) s
  let s := (s.costumes.scrubs.filter fun x => x.index = i).foldl State.endScrub s
  let s := { s with costumes := { s.costumes with ckpts := Table.erase s.costumes.ckpts i, ckAt := Table.erase s.costumes.ckAt i, ckLoc := Table.erase s.costumes.ckLoc i } }
  let s := (s.audit i 0x0D 0 e.gen e.ended who).freeEntry i
  match e.retire with
  | some c => s.finish c 0
  | none => s
def execRetireComplete (handle : Nat) (s : State) : Res :=
  let i := handleIdx handle
  guarded ((s.entry i).st = 3 && s.handleOf i = handle && (List.range 16).all (fun g => s.leases g i = 0) && (s.job i).isNone) s (s.retired i)

end Sys2Proof.Machine
end

