-- ==== Sys2Proof/Machine/Rigging.lean ====
section
/-! DEFINITION. Rigging.lean: quiescing, releasing, rigging and unrigging stages, epochs, and the loading of base
models (ch. Rigging images and stages R383-R397; ch. Host interface R435; ch. Principals R446-R449). -/

namespace Sys2Proof.Machine

/-! ### The module epoch (R458) -/

/-- Events that increase the module epoch. -/
def State.epochEvents (s : State) (n : Nat) : State :=
  { s with power := { s.power with epochEvents := (s.power.epochEvents + n) % 2 ^ 32 } }

/-- A stage enters READY. -/
def State.enterReady (s : State) (g : Nat) : State := (s.setStage g { s.stage g with st := 2 }).epochEvents 1

/-! ### Wipes (R387 step 2) -/

/-- Zeros over one compute die's SRAM. VCSR is a register, so it stays (DEDUCED, log 25). -/
def State.wipeDie (s : State) (d : Nat) : State :=
  let s := (List.range 16).foldl (fun s c =>
    s.setCluster (16 * d + c) { Cluster.init with rm := (s.cluster (16 * d + c)).rm, flags := (s.cluster (16 * d + c)).flags }) s
  (s.setDie d { s.die d with mover0 := [], mover1 := [] }).zeroRange (dieWindow d) 0x4000_0000

/-- One granule: zeros on a memory die, a new key in staging. -/
def State.wipeGranule (s : State) (space i : Nat) : State :=
  if space = 1 then s.rekey i else s.zeroRange (granuleAddr 0 i) 0x400_0000

/-- The granules of a plan, clear of the plans of READY stages. -/
def State.wipeRuns (s : State) (runs : List Run) : State :=
  let keep := (List.range 16).flatMap fun g => if (s.stage g).st = 2 then ((s.stage g).cfg.map (·.runs)).getD [] else []
  runs.foldl (fun s r => (List.range r.count).foldl (fun s k =>
    if keep.any fun x => x.space = r.space && x.first ≤ r.first + k && r.first + k < x.first + x.count then s
    else s.wipeGranule r.space (r.first + k)) s) s

/-- Dies of a plan, clear of those of READY stages. -/
def State.wipeDies (s : State) (dies : List Nat) : State :=
  let keep := (List.range 16).flatMap fun g => if (s.stage g).st = 2 then s.stageDies g else []
  dies.foldl (fun s d => if keep.contains d then s else s.wipeDie d) s

def State.planOf (s : State) (g : Nat) : List Run := ((s.stage g).cfg.map (·.runs)).getD []

/-- A stage number becomes UNRIGGED: its dies and granules are wiped, its images gone (R388, R396). The counters of its
IN routes stay until it is rigged anew: they count what comes for it as GONE (R397). -/
def State.unrig (s : State) (g epoch : Nat) : State :=
  let dies := s.stageDies g
  let runs := s.planOf g
  let s := (s.setStage g { Stage.init with epoch := epoch, ins := (s.stage g).ins.map fun x => { x with arrivals := [] } }).wipeDies dies
  ((s.wipeRuns runs).clearWardrobe g).kickLoads

def maxEpoch : Nat := 0xFFFFFFFF
/-- The epoch after an event that increases it; the largest stays (R392, R396). -/
def nextEpoch (e : Nat) : Nat := if e = maxEpoch then e else e + 1

/-! ### Rigging a stage (R387, R391) -/

/-- A rig that is still to take this stage. -/
def State.rigNames (s : State) (g : Nat) : Bool :=
  match s.rig with
  | some r => r.todo.contains g
  | none => false

/-- Ends a rig: the command completes with OK or with the status of the failing stage of lowest number (R383). -/
def State.endRig (s : State) (r : RigJob) : State :=
  let s := { s with rig := none }
  match r.cmd with
  | some c => s.finish c r.status
  | none => s

/-- Routes of a stage (R372, R395). -/
def inRoutes (l : List Bytes) : List InRoute := l.filterMap fun r =>
  if fieldAt r 0 1 = 3 then
    some { port := 2 * bits (fieldAt r 1 1) 0 3 + bits (fieldAt r 1 1) 3 1, peer := fieldAt r 2 1, first := fieldAt r 4 2
           count := fieldAt r 6 2, arrive := fieldAt r 0x10 4, written := 0, stale := 0, gone := 0, tagFails := 0
           ovf := [false, false, false, false], epoch := none, arrivals := [], gen := 0 }
  else none
def outRoutes (l : List Bytes) : List OutRoute := l.filterMap fun r =>
  if fieldAt r 0 1 = 2 then
    some { port := 2 * bits (fieldAt r 1 1) 0 3 + bits (fieldAt r 1 1) 3 1, peer := fieldAt r 2 1, first := fieldAt r 4 2
           count := fieldAt r 6 2, base := fieldAt r 8 5, gen := 0 }
  else none

/-- Step 1 and step 2 of R387 for a stage with dies. The counters of its new IN routes count from here on (R397). -/
def State.beginStage (s : State) (m : Image) (g : Nat) : State :=
  let old := s.stage g
  let dies := s.stageDies g
  let runs := s.planOf g
  let c := m.cfg g
  let s := s.setStage g { Stage.init with st := 1, epoch := old.epoch + 1, cfg := some c, ins := inRoutes (m.routes g), outs := outRoutes (m.routes g) }
  (((s.wipeDies (dies ++ c.dies)).wipeRuns (runs ++ c.runs)).clearWardrobe g).kickLoads

/-- Takes up the stages that are left: unrigs those without dies (R388), and starts the next one with dies. -/
def State.rigNext (s : State) (m : Image) : Nat → State
  | 0 => s
  | f + 1 =>
    match s.rig with
    | none => s
    | some r =>
      match r.todo with
      | [] => s.endRig r
      | g :: rest =>
        let e := (s.stage g).epoch
        let fail (st : Nat) : State :=
          ({ s.unrig g (nextEpoch e) with rig := some { r with current := none, todo := rest, status := if r.status = 0 then st else r.status } } : State).rigNext m f
        if e = maxEpoch then fail 0x0504
        else if (m.cfg g).dies = [] then fail 0
        else if s.fencedBy (m.cfg g) (m.routes g) then fail 0x0703
        else { s.beginStage m g with rig := some { r with current := some g, todo := rest } }

/-- The module's own granules under a full image (R370): packages and checkpoints that lie in granules it takes
away are gone, and every granule that changes hands gets new keys (R455). -/
def State.takeModuleRuns (s : State) (new : List Run) : State :=
  let old := s.modRuns
  let gran (l : List Run) (kind : Nat) : List Nat := (l.filter fun r => r.kind = kind).flatMap fun r => (List.range r.count).map (r.first + ·)
  let lost (kind : Nat) : List Nat := (gran old kind).filter fun i => !(gran new kind).contains i
  let won (kind : Nat) : List Nat := (gran new kind).filter fun i => !(gran old kind).contains i
  let s := s.costumes.cache.foldl (fun s c =>
    if (lost 0xC).any fun i => granuleAddr 1 i ≤ c.addr + c.bytes.length - 1 && c.addr < granuleAddr 1 (i + 1) then s.uncache c.index else s) s
  let hit (x : Nat × Nat) : Bool := (lost 0xD).any fun i => granuleAddr 1 i < x.1 + x.2 && x.1 < granuleAddr 1 (i + 1)
  let gone := (s.costumes.ckAt.filter fun p => p.2.any hit).map (·.1)
  let s := { s with costumes := { s.costumes with ckpts := s.costumes.ckpts.filter fun p => !gone.contains p.1
                                                  ckAt := s.costumes.ckAt.filter fun p => !gone.contains p.1 } }
  let s := (lost 0xC ++ lost 0xD ++ won 0xC ++ won 0xD).eraseDups.foldl State.rekey s
  { s with modRuns := new }

/-- A rig begins once the stages it names have been quiesced and no scrub pass of them runs. -/
def State.startRig (s : State) : State :=
  match s.rig with
  | none => s
  | some r =>
    match parseImage s.dev.part r.image with
    | none => s.endRig { r with status := 0x0504 }
    | some m =>
      if r.current.isSome || r.todo.any (fun g => (s.stage g).st = 3 || (s.stage g).st = 2 || (s.stage g).scrub.isSome) then s
      else (if m.full then s.takeModuleRuns m.module else s).rigNext m 17

/-- Programs into instruction memory (R376, R377). -/
def State.loadPrograms (s : State) (dies : List Nat) (l : List ClusterRec) : State :=
  (dies.flatMap fun d => (List.range 16).map fun c => 16 * d + c).foldl (fun s cl =>
    let k := s.cluster cl
    match l.find? fun r => r.cl = cl with
    | some r =>
      let words := (r.words.zipIdx.filter fun p => p.1 ≠ 0).map fun p => (p.2, p.1)
      s.setCluster cl { k with imem := words, entries := r.entries, args := r.args }
    | none => s.setCluster cl { k with imem := [(0, 1)], entries := List.replicate 16 0, args := [] }) s

/-- Steps 3 to 5 of R387 for the stage being rigged: its status and the state after a success. -/
def State.finishStage (s : State) (m : Image) (g : Nat) : Nat × State :=
  match m.programs g, m.constants s.dev.part g with
  | none, _ => (0x0504, s)
  | _, none => (0x0504, s)
  | some p, some k =>
    if !s.verified m g then (0x0505, s)
    else
      let s := s.loadPrograms (m.cfg g).dies p
      let s := k.foldl (fun s x => s.writeBytes x.1 x.2) s
      (0, s.enterReady g)

/-- The stage being rigged ends UNRIGGED with a status, and the rig goes on (R383, R397). A fence that removes it
increases its epoch (R392). -/
def State.failStage (s : State) (status : Nat) (fence : Bool) : State :=
  match s.rig with
  | some r =>
    match r.current, parseImage s.dev.part r.image with
    | some g, some m =>
      ({ s.unrig g (if fence then nextEpoch (s.stage g).epoch else (s.stage g).epoch) with rig := some { r with current := none, status := if r.status = 0 then status else r.status } } : State).rigNext m 17
    | _, _ => s
  | none => s

/-- RIG_COMPLETE (R387): phase B of the stage being rigged, and the stage READY or UNRIGGED. -/
def State.rigComplete (s : State) : State :=
  match s.rig with
  | some r =>
    match r.current, parseImage s.dev.part r.image with
    | some g, some m =>
      let x := s.finishStage m g
      if x.1 = 0 then ({ x.2 with rig := some { r with current := none } } : State).rigNext m 17 else s.failStage x.1 false
    | _, _ => s
  | none => s
def execRigComplete (s : State) : Res := .next s.rigComplete

/-! ### Quiesce and release (R384-R386) -/

/-- Weight bytes of a stage's loaded model. -/
def State.weightBytes (s : State) (g : Nat) : Nat := ((s.stage g).model.map (·.weightBytes)).getD 0

/-- A MODEL_LOAD in progress on a stage ends with STAGE_GONE, and the stage's model is then not loaded (R384). -/
def State.cancelModelLoad (s : State) (g : Nat) : State :=
  let mine (o : NvmeOp) : Option CmdRef := match o.purpose with
    | .model q i h _ => if h = g then some (q, i) else none
    | _ => none
  let s := s.storage.ops.foldl (fun s o => match mine o with
    | some c => (s.finish c 0x0501).setStage g { s.stage g with model := none }
    | none => s) s
  { s with storage := { s.storage with ops := s.storage.ops.filter fun o => (mine o).isNone } }

/-- The model of a stage is removed: zeros over WEIGHTS, new keys for MODEL_COPY (R435 step 2). -/
def State.dropModel (s : State) (g : Nat) : State :=
  let s := s.cancelModelLoad g
  let s := (s.granules g 0 1).foldl (fun s i => s.wipeGranule 0 i) s
  let s := (s.granules g 1 0xA).foldl (fun s i => s.wipeGranule 1 i) s
  s.setStage g { s.stage g with model := none }

/-- Costume images and loads of a stage enter SCRUBBING (R279, R284). -/
def State.scrubStage (s : State) (g : Nat) : State :=
  s.costumes.res.foldl (fun s r =>
    if r.stage = g then (r.pins.foldl (fun s c => s.finish c 0x0501) s).scrubOut r (s.whoOf (s.quiesceCmd g)) else s) s |>.kickLoads

/-- The completions that a stage of fixed cadence has held back are posted (R466). -/
def State.flushPosts (s : State) (g : Nat) : State :=
  let t := s.stage g
  t.posts.foldl (fun s p => s.post p.1 p.2) (s.setStage g { t with posts := [] })

/-- Steps 3 to 6 of R384 once no step runs, and what the quiesce was for. The generations of its OUT routes count from 0 in the
new epoch (R456). -/
def State.quiesceEnd (s : State) (g : Nat) : State :=
  let t := s.stage g
  let s := s.flushPosts g
  let s := s.requests.foldl (fun s r => if r.stage = g then s.endRequest r 0x0501 false false else s) s
  let s := (s.jobs.foldl (fun s x => if x.2.stage = g then s.closeJob x.1 0x0501 else s) s).flushPosts g
  let bytes := s.weightBytes g
  let s := s.cancelModelLoad g
  let waiters := t.waiters
  let opOf (s : State) (c : CmdRef) : Nat := ((s.cmdOf c).map (·.opcode)).getD 0
  let s := s.scrubStage g
  if t.epoch = maxEpoch then
    (waiters.foldl (fun s c => s.finish c 0x0501) (s.unrig g maxEpoch)).startRig
  else
    let s := s.setStage g { s.stage g with epoch := t.epoch + 1, waiters := [], why := .command, outs := (s.stage g).outs.map fun x => { x with gen := 0 } }
    let s := [3, 4, 5].foldl (fun s k => (s.granules g 0 k).foldl (fun s i => s.wipeGranule 0 i) s) s
    let s := (s.granules g 1 0xB).foldl (fun s i => s.wipeGranule 1 i) s
    let s := s.setStage g { s.stage g with st := 4 }
    let s := match t.why with
      | .command => s
      | .rig => s
      | .unload => if s.rigNames g then s.dropModel g else (s.dropModel g).enterReady g
      | .fence => s.unrig g (nextEpoch (t.epoch + 1))
      | .remove => s.unrig g (nextEpoch (t.epoch + 1))
    (waiters.foldl (fun s c => s.finish c 0 (if opOf s c = 0x11 then bytes else 0)) s).startRig

/-- A quiescing stage with no step and no scrub pass ends its quiesce. -/
def State.settleQuiesce (s : State) (g : Nat) : State :=
  let t := s.stage g
  if t.st = 3 && t.step.isNone && t.scrub.isNone then s.quiesceEnd g else s

/-- The fed steps of a stage's jobs that no running step holds end with STAGE_GONE (R384 step 1). -/
def State.endQueued (s : State) (g : Nat) : State :=
  s.jobs.foldl (fun s x =>
    if x.2.stage ≠ g then s
    else
      let held := x.2.running && (s.stage g).step.isSome
      let n := if held then 1 else 0
      let j := if held then x.2 else { x.2 with losses := [], samples := 0, passIdx := 0, passes := [] }
      (x.2.feeds.drop n).foldl (fun s f => s.finish f.cmd 0x0501) (s.setJob x.1 { j with feeds := x.2.feeds.take n })) s

/-- The requests with rows in a step, in the order of taking. -/
def State.stepRequests (s : State) (t : Step) : List Request :=
  s.requests.filter fun r => t.groups.any fun g => g.job.isNone && g.rows.any fun x => x.owner = r.id

/-- The leases of a step are released, all at one moment (R280). -/
def State.releaseLeases (s : State) (g : Nat) (t : Step) : State :=
  let n := s.stamp
  (sortNats ((t.groups.filter fun x => x.handle ≠ noHandle).map fun x => handleIdx x.handle)).foldl (fun s i =>
    match s.resident g i with
    | some r => s.setResident { r with steps := r.steps + 1, order := n.1 }
    | none => s) n.2

/-- The nesting level of a step replay: the smallest that holds every die of the stage (R473). -/
def State.stageLevel (s : State) (g : Nat) : Nat :=
  match s.stageDies g with
  | [] => 5
  | d :: l => if l.isEmpty then 5 else if l.all fun x => quadrantOf x = quadrantOf d then 6 else 7

/-- The errors of a step that waited for a replay are recovered, or not (R473, R479). -/
def State.settleErrors (s : State) (g : Nat) (t : Step) (ok : Bool) : State :=
  let lv := s.stageLevel g
  t.errors.foldl (fun s e =>
    if ok then (s.logError e.1 e.2.1 e.2.2 lv 4 0x0701 false false).addCorrectable e.1
    else (s.logError e.1 e.2.1 e.2.2 lv 4 0x0702 true false).addUnrecovered e.1) s

/-- A step that is being replayed, or waits for its replay. -/
def Step.replaying (t : Step) : Bool := t.aborted || 1 < t.attempt

/-- A step replay is abandoned: the requests with rows in it end with the status (R492). -/
def State.abandonReplay (s : State) (g status : Nat) : State :=
  match (s.stage g).step with
  | none => s
  | some t =>
    if !t.replaying then s
    else
      let s := if t.aborted then s else s.abortStep g
      let s := ((s.settleErrors g t false).setStage g { (s.settleErrors g t false).stage g with step := none }).releaseLeases g t
      (s.stepRequests t).foldl (fun s r => s.endRequest r status false true) s

/-- Work queued for a stage that no running step holds ends with STAGE_GONE: requests, feeds, and the commands that wait for a
costume, pages or a checkpoint (R384 step 1). -/
def State.endWaiting (s : State) (g : Nat) : State :=
  let s := s.requests.foldl (fun s r => if r.stage = g && !s.inStep r then s.endRequest r 0x0501 false false else s) s
  let s := (s.failHeld (fun x => x.2 = g) 0x0501).endRestores (fun _ h => h = g) 0x0501
  s.endQueued g

/-- Step 1 of R384 on a READY stage: QUIESCING, and what waits ends with STAGE_GONE; a replay is abandoned (R492). A scrub pass
runs to its end first. -/
def State.quiesceNow (s : State) (g : Nat) (why : QuiesceFor) (l : List CmdRef) : State :=
  let s := (s.setStage g { s.stage g with st := 3, why := why, waiters := l, due := [] }).epochEvents 1
  ((s.abandonReplay g 0x0501).endWaiting g).settleQuiesce g
def State.startQuiesce (s : State) (g : Nat) (why : QuiesceFor) (c : Option CmdRef) : State :=
  if (s.stage g).scrub.isSome then s.setStage g { s.stage g with due := (s.stage g).due ++ [(why, c)] }
  else s.quiesceNow g why c.toList

/-- What several quiesces of one stage come to: the one that leaves the least of the stage. -/
def strongest (l : List QuiesceFor) : QuiesceFor :=
  if l.contains .fence then .fence else if l.contains .remove then .remove else if l.contains .unload then .unload else l.headD .command

/-- The quiesces that have waited for a scrub pass start together (R492). -/
def State.quiesceDue (s : State) (g : Nat) : State :=
  let l := (s.stage g).due
  if l.isEmpty then s else s.quiesceNow g (strongest (l.map (·.1))) (l.filterMap (·.2))

/-- STAGE_QUIESCE (R384, R386, R460). Each one, whatever it ends with, is an event of the module epoch (R458). -/
def doStageQuiesce : Start := fun k s =>
  let g := k.arg 0 1
  let t := s.stage g
  let s := s.epochEvents 1
  if t.st ≠ 0 && s.rerigged k g then s.finish k.ref 0x0502
  else match t.st with
  | 0 => s.finish k.ref 0x0501
  | 1 => s.finish k.ref 0x0502
  | 2 => s.startQuiesce g .command (some k.ref)
  | 3 => s.setStage g { t with waiters := t.waiters ++ [k.ref] }
  | _ => s.finish k.ref 0
def execStageQuiesce (c : HostCmd) (s : State) : Res := s.command c 0x19 doStageQuiesce

/-- STAGE_RELEASE (R386, R460). A release waits for a scrub pass of the stage; one that a fence waits behind is refused. -/
def doStageRelease : Start := fun k s =>
  let g := k.arg 0 1
  let t := s.stage g
  if t.st ≠ 0 && s.rerigged k g then s.finish k.ref 0x0502
  else match t.st with
  | 0 => s.finish k.ref 0x0501
  | 1 => s.finish k.ref 0x0502
  | 2 => s.finish k.ref 0
  | 3 => s.finish k.ref 0x0502
  | _ =>
    if s.rigNames g || t.why = .fence then s.finish k.ref 0x0502
    else if t.scrub.isSome then s.hold k false
    else (s.enterReady g).finish k.ref 0
def execStageRelease (c : HostCmd) (s : State) : Res := s.command c 0x1A doStageRelease

/-! ### RIG_STAGE (R382, R383, R390) -/

/-- The stages that a rig names are quiesced, and the rig begins once they are. -/
def State.takeRig (s : State) (cmd : Option CmdRef) (image : Bytes) (stages : List Nat) : State :=
  let s := { s with rig := some { cmd := cmd, image := image, current := none, todo := stages, status := 0 } }
  (stages.foldl (fun s g => if (s.stage g).st = 2 then s.startQuiesce g .rig none else s) s).startRig

/-- A rig runs, that of the default image included, which a wipe leaves due (R494). -/
def State.rigging (s : State) : Bool := s.rig.isSome || s.power.defaultRig

/-- RIG_STAGE: phase A, then the rig; it waits while another rig runs. -/
def doRigStage : Start := fun k s =>
  if fieldAt k.data 8 4 ≠ k.data.length then s.finish k.ref 0x0104
  else if s.rigging || s.host.held.any (fun h => h.opcode = 0x18 && h.id < k.id) then s.hold k false
  else match parseImage s.dev.part k.data with
    | none => s.finish k.ref 0x0504
    | some m =>
      let st := s.phaseA m
      if st ≠ 0 then s.finish k.ref st else s.takeRig (some k.ref) k.data m.stages
def execRigStage (c : HostCmd) (s : State) : Res := s.command c 0x18 doRigStage

/-- The stages of the default image that no check of phase A stops: the ones that rig (R391, R494). -/
def State.defaultStages (s : State) : List Nat :=
  match parseImage s.dev.part s.dev.flashImage with
  | some m => if m.full then m.stages.foldl (fun l g => if s.phaseA { m with stages := l ++ [g] } = 0 then l ++ [g] else l) [] else []
  | none => []

/-- DEFAULT_IMAGE_RIG (R391, R494): the image in carrier flash is rigged, which the end of a wipe has made due. A stage that a
check of phase A stops is UNRIGGED while the others rig, one that a fence has stopped since then too. -/
def State.rigDefault (s : State) : State :=
  let ok := s.defaultStages
  let s := { s with power := { s.power with defaultRig := false } }
  let s := (List.range 16).foldl (fun s g => if (s.stage g).st = 1 && !ok.contains g then s.setStage g { s.stage g with st := 0 } else s) s
  if ok.isEmpty then s else s.takeRig none s.dev.flashImage ok
def execDefaultImageRig (s : State) : Res :=
  guarded (s.power.phase = .running && s.power.defaultRig && s.rig.isNone) s s.rigDefault

/-! ### Base models (R446-R449) -/

def chunkLen : Nat := 1048576

/-- A model package's header fits its length (R446). Its RES0 fields are ignored, as are those behind it (R9). -/
def modelHeaderOk (b : Bytes) : Bool :=
  let p := fieldAt b 0x10 8
  let n := fieldAt b 0x18 4
  slice b 0 4 == ascii "LGMP" && fieldAt b 4 2 = 1 && n = ceilDiv p chunkLen && 0 < p && b.length = 64 + p + 16 * n

/-- One chunk in the clear; none where its tag or digest fails (R446, R447). -/
def modelChunk (key b : Bytes) (i : Nat) : Option Bytes :=
  let n := min chunkLen (fieldAt b 0x10 8 - i * chunkLen)
  let c := slice b (64 + i * (chunkLen + 16)) n
  let tag := slice b (64 + i * (chunkLen + 16) + n) 16
  if bit (fieldAt b 6 1) 0 then
    if (Crypto.sha384 (b.take 64 ++ toBytes 4 i ++ c)).take 16 == tag then some c else none
  else Crypto.gcmDec key (slice b 0x20 8 ++ toBytes 4 i) (b.take 64 ++ toBytes 4 i) c tag

/-- The plaintext of a package. -/
def modelPlain (key b : Bytes) : Option Bytes :=
  (List.range (fieldAt b 0x18 4)).foldr (fun i r => match modelChunk key b i, r with
    | some c, some t => some (c ++ t)
    | _, _ => none) (some [])

/-- One placement record (R448). -/
structure Placement where
  addr : Nat
  kind : Nat
  bytes : Bytes

def placements : Nat → Nat → Bytes → Option (List Placement)
  | _, 0, _ => some []
  | 0, _, _ => none
  | f + 1, n + 1, b =>
    let len := fieldAt b 8 4
    if b.length < 64 + len || len % 64 ≠ 0 || !(fieldAt b 0xC 1 = 1 || fieldAt b 0xC 1 = 2) then none
    else (placements f n (b.drop (64 + len))).map fun r => ⟨fieldAt b 0 5, fieldAt b 0xC 1, slice b 64 len⟩ :: r

/-- Bricks of a dense bricked tensor. -/
def brickCount (d : Desc) : Nat := (List.range d.rank).foldl (fun n k => n * d.extent k) 1

/-- Byte ranges that a placement writes. -/
def Placement.spans (p : Placement) : List (Nat × Nat) :=
  if p.kind = 1 then [(p.addr, p.bytes.length)]
  else
    let d := Desc.ofNat (leNat (p.bytes.take 64))
    [(p.addr, brickCount d * brickBytes d.ty), (d.sbase, 4 * brickCount d)] ++ if d.sums = 0 then [] else [(d.sbase + d.sumDist, 32 * brickCount d)]

/-- A TENSOR record names a bricked tensor that is dense in every dimension and lies at ADDR (R448). -/
def Placement.shaped (p : Placement) : Bool :=
  p.kind = 1 ||
    (let d := Desc.ofNat (leNat (p.bytes.take 64))
     d.brick && d.base = p.addr && 2 ≤ d.rank && d.rank ≤ 6 && 3 ≤ d.ty && d.ty ≤ 7 && (List.range d.rank).all (bit d.dense) &&
       64 + brickCount d * (brickBytes d.ty + 4) ≤ p.bytes.length)

/-- The header of brick `k` of a TENSOR record. -/
def Placement.header (p : Placement) (d : Desc) (k : Nat) : Nat := fieldAt p.bytes (64 + brickCount d * brickBytes d.ty + 4 * k) 4

/-- The tags of a TENSOR record, computed as if its elements began at address 0. -/
def Placement.tagged (p : Placement) : Bool :=
  let d := Desc.ofNat (leNat (p.bytes.take 64))
  p.kind = 1 || (List.range (brickCount d)).all fun k => hdrTag (p.header d k) = brickTag (k * brickBytes d.ty)

/-- Row of brick `k` of a dense bricked tensor: its first dimension-1 coordinate. -/
def rowOfBrick (d : Desc) (k : Nat) : Nat := 16 * (k / d.extent 0 % d.extent 1)

/-- The codes of a weight brick without those of its outlier channels, where its header is flagged (R46). -/
def withoutChannels (l : List Nat) (row h : Nat) (codes : List Nat) : List Nat :=
  if bit h 19 then codes.zipIdx.map fun c => if l.contains (row + c.2 / 16) then 0 else c.1 else codes

/-- The placement names an outlier map: a weight of N4 or T2 (R108). -/
def Placement.mapped (p : Placement) : Bool :=
  let d := Desc.ofNat (leNat (p.bytes.take 64))
  p.kind = 2 && d.omap ≠ 0 && (d.ty = tyN4 || d.ty = tyT2)

/-- The codes of brick `k` of a dense tensor with the zero code at positions beyond its sizes, as they decode (R40). -/
def insideCodes (d : Desc) (k h : Nat) (codes : List Nat) : List Nat :=
  codes.zipIdx.map fun c =>
    if 16 * (k % d.extent 0) + c.2 % 16 < d.sizeOf 0 && rowOfBrick d k + c.2 / 16 < d.sizeOf 1 then c.1 else zeroCode d.ty (hdrZp h)

/-- Writes a placement, with headers tagged for their destination (R49) and sums computed as the bricks decode (R82, R83).
The codes of outlier channels are written as 0 (R46). A whole line written clears its poison (R472). -/
def State.place (s : State) (p : Placement) : State :=
  if p.kind = 1 then (s.writeBytes p.addr p.bytes).unpoison p.addr p.bytes.length
  else
    let d := Desc.ofNat (leNat (p.bytes.take 64))
    let n := brickBytes d.ty
    let chans := if p.mapped then s.mapChannels d.omap else []
    let s := (List.range (brickCount d)).foldl (fun s k =>
      let el := packBrick d.ty (withoutChannels chans (rowOfBrick d k) (p.header d k) (unpackBrick d.ty (slice p.bytes (64 + k * n) n)))
      let s := (s.writeBytes (p.addr + k * n) el).writeLE (d.sbase + 4 * k) 4 (reTag (p.header d k) (brickTag (p.addr + k * n)))
      if d.sums = 0 then s
      else
        let codes := sumCodes d.ty (p.header d k) (insideCodes d k (p.header d k) (unpackBrick d.ty el))
        s.writeBytes (d.sbase + d.sumDist + 32 * k) ((brickSums d.ty d.sums codes).flatMap fun v => toBytes 2 (unsigned v 16))) s
    p.spans.foldl (fun s r => s.unpoison r.1 r.2) s

/-- Writes every placement; those that name an outlier map once more, with the map in place (DESIGN CHOICE, log 75). -/
def State.placeRecords (s : State) (l : List Placement) : State := (l.filter (·.mapped)).foldl State.place (l.foldl State.place s)

/-- A load that fails: the model is not loaded, and WEIGHTS holds zeros (R449). -/
def State.failModel (s : State) (g : Nat) : State :=
  let s := (s.granules g 0 1).foldl (fun s i => s.wipeGranule 0 i) s
  s.setStage g { s.stage g with model := none }

/-- The checks and the placement of a package: 0 and the bytes placed, or a status. -/
def State.placeModel (s : State) (g : Nat) (c : StageCfg) (key b : Bytes) : Nat × Nat × State :=
  let model := fieldAt b 8 4
  let owner := fieldAt b 0xC 4
  let bound := Table.find s.store.modelKeys model
  let clear := bit (fieldAt b 6 1) 0
  let fail (st : Nat) : Nat × Nat × State := (st, 0, s.failModel g)
  if !modelHeaderOk b || model ≠ c.model then fail 0x0104
  else if (match bound with
    | some k => k.1 ≠ owner
    | none => false) || owner ≠ c.owner then fail 0x0605
  else if !clear && key.isEmpty then fail 0x0603
  else if (s.granules g 1 0xA).length * 0x400_0000 < b.length then fail 0x0104
  else match modelPlain key b with
    | none => fail 0x0603
    | some p =>
      match placements (fieldAt p 0x20 4) (fieldAt p 0x20 4) (p.drop 64) with
      | none => fail 0x0104
      | some l =>
        let spans := l.flatMap Placement.spans
        if !l.all Placement.shaped || !spans.all (fun x => x.2 = 0 || within c.runs 0 1 x.1 x.2) then fail 0x0104
        else if !l.all Placement.tagged then fail 0x0603
        else
          let bytes := (spans.map (·.2)).foldl (· + ·) 0
          let s := s.placeRecords l
          (0, bytes, s.setStage g { s.stage g with model := some { weightBytes := bytes, segSeed := slice p 0 32, package := b, placed := spans } })

/-- R381 and R447 on a package's CLEAR bit: an unsigned stage takes a clear package of a model without a key, a
signed stage takes no clear package. -/
def State.modelRefused (s : State) (c : StageCfg) (b : Bytes) : Bool :=
  let clear := bit (fieldAt b 6 1) 0
  if c.owner = 0 then !clear || (Table.find s.store.modelKeys (fieldAt b 8 4)).isSome else clear

/-- MODEL_LOAD once the package is at hand. -/
def State.modelLoaded (s : State) (r : CmdRef) (g : Nat) (key b : Bytes) : State :=
  match (s.stage g).cfg with
  | none => s.finish r 0x0501
  | some c =>
    if s.modelRefused c b then s.finish r 0x0505
    else
      let x := s.placeModel g c key b
      x.2.2.finish r x.1 x.2.1

/-- The key of a model in the protected store. -/
def State.modelKey (s : State) (model : Nat) : Bytes := ((Table.find s.store.modelKeys model).map (·.2)).getD []

/-- MODEL_LOAD (R449, R358, R422, R423). -/
def doModelLoad : Start := fun k s =>
  let g := k.arg 0 1
  let st := s.stageFor k g
  match (s.stage g).cfg with
  | none => s.finish k.ref (if st = 0 then 0x0501 else st)
  | some c =>
    let pk := s.kindOf k.principal
    let key := s.modelKey c.model
    if st ≠ 0 then s.finish k.ref st
    else if pk = 2 && c.owner ≠ k.principal then s.finish k.ref 0x0605
    else if pk ≠ 2 && c.owner ≠ 0 then s.finish k.ref 0x0505
    else if k.arg 0x18 4 ≠ c.model then s.finish k.ref 0x0104
    else if !bit (k.arg 1 1) 0 then s.modelLoaded k.ref g key k.data
    else if s.nvmeOk (k.arg 2 1) (k.arg 4 4) (k.arg 8 8) (k.arg 0x10 8) then
      s.nvmeIssue false (k.arg 2 1) (k.arg 4 4) (k.arg 8 8) (k.arg 0x10 8) [] (.model k.qp k.id g key)
    else s.finish k.ref 0x0104
def execModelLoad (c : HostCmd) (s : State) : Res := s.command c 0x10 doModelLoad

/-- MODEL_UNLOAD (R435, R460). -/
def doModelUnload : Start := fun k s =>
  let g := k.arg 0 1
  let t := s.stage g
  let owner := (t.cfg.map (·.owner)).getD 0
  if t.st = 0 then s.finish k.ref 0x0501
  else if t.st = 1 || t.st = 3 || s.rerigged k g then s.finish k.ref 0x0502
  else if s.kindOf k.principal = 2 && owner ≠ k.principal then s.finish k.ref 0x0605
  else if t.model.isNone then s.finish k.ref 0
  else if t.st = 2 then s.startQuiesce g .unload (some k.ref)
  else (s.dropModel g).finish k.ref 0 (s.weightBytes g)
def execModelUnload (c : HostCmd) (s : State) : Res := s.command c 0x11 doModelUnload

end Sys2Proof.Machine
end

