-- ==== Sys2Proof/Machine/Carousel.lean ====
section
/-! DEFINITION. Carousel.lean: joining and leaving a ring, its frames, the reduce phase, the verdict, publication,
and the loss of a port (ch. Carousel R323-R356). -/

namespace Sys2Proof.Machine

/-! ### Shards of a member (R171, R332) -/

/-- The optimizer state divided anew over the dies of the stage for the slot the job now has. -/
def State.reshard (s : State) (i : Nat) : State :=
  match s.job i with
  | none => s
  | some j =>
    let img := (s.currentImage i j.stage).getD []
    s.setJob i { j with shards := (s.stageDies j.stage).map fun d =>
      let h := s.newShard i j img d
      let l := (List.range h.count).filterMap fun t => blockState j.shards (h.first + t)
      if l.length = h.count then h.joinAll l else h }

/-! ### CAROUSEL_JOIN and CAROUSEL_LEAVE (R332, R336) -/

/-- Planes of the module whose ports are trained. -/
def State.planes (s : State) : Nat := (List.range 4).countP fun r => (s.port (2 * r)).up && (s.port (2 * r + 1)).up

def Ring.init (k : Call) (key salt : Bytes) : Ring where
  id := k.arg 8 8
  members := k.arg 0x10 2
  slot := k.arg 0x12 2
  rings := k.arg 0x14 1
  deadline := k.arg 0x18 4
  hold := k.arg 0x1C 4
  key := key
  salt := salt
  joining := some k.ref
  leaving := none
  leave := false
  pred := none
  pred2 := none
  formDue := false
  formed := false
  formsIn := 0
  refused := false
  opened := false
  late := false
  present := none
  final := []
  sent := []
  held := []
  done := []
  agreed := []
  fromOvf := false
  overflow := false
  attempt := 0
  seen := none
  folded := false
  scanBad := false
  misord := false
  lap1Sent := false
  decided := none
  lastVerdict := none
  ckpt := false
  forwarded := []
  cseq := []
  early := []
  stat := RingStat.init

/-- CAROUSEL_JOIN (R332, R334): the member sends its FORM and waits for one. A job that is not at a window boundary, is
PAUSED, or is in a ring ends it with DESC_TYPE; a key that does not unwrap with COSTUME_KEY_FAIL (DESIGN CHOICE, log 29). So does
a job that has run windows and holds the optimizer state of another slot than the one it is to take (R317, R338). -/
def doCarouselJoin : Start := fun k s =>
  let i := handleIdx (k.arg 0 4)
  let a := s.jobStatus k
  match s.job i with
  | none => s.finish k.ref (if a = 0 then 0x0302 else a)
  | some j =>
    if a ≠ 0 then s.finish k.ref a
    else if k.data.length ≠ 40 || !j.atBoundary || j.paused || j.ring.isSome || j.closing.isSome ||
        (j.ckSlot.isNone && j.exchanges ≠ 0) || j.ckSlot.any (· ≠ (k.arg 0x10 2, k.arg 0x12 2)) then s.finish k.ref 0x0104
    else if s.planes < k.arg 0x14 1 then s.finish k.ref 0x0801
    else match Crypto.keyUnwrap (s.wrapKey k.principal) k.data with
      | none => s.finish k.ref 0x0304
      | some key =>
        let r := s.random 32
        (r.2.setJob i { j with ring := some (Ring.init k key r.1) }).sendForm i
def execCarouselJoin (c : HostCmd) (s : State) : Res := s.command c 0x40 doCarouselJoin

/-- JOIN_TIMEOUT (R334): neither a FORM nor a REFUSE within H. A REFUSE that came before the key to read it with has refused the
joiner (DESIGN CHOICE, log 29). -/
def execJoinTimeout (job : Nat) (s : State) : Res :=
  match (s.job job).bind (·.ring) with
  | some r =>
    match r.joining with
    | some c => .next ((s.mapJob job fun j => { j with ring := none }).finish c (if r.early.isEmpty then 0x0402 else 0x0104))
    | none => .next s
  | none => .next s

/-! ### FORM, REFUSE, LEAVE (R334-R337) -/

/-- The joiner has received a FORM: its command completes and its shards take their ring's ownership. -/
def State.joined (s : State) (i : Nat) : State :=
  match (s.job i).bind (·.ring) with
  | some r =>
    match r.joining with
    | some c => ((s.mapRing i fun r => { r with joining := none }).finish c 0).reshard i
    | none => s
  | none => s

def State.refuse (s : State) (i : Nat) : State := (s.mapRing i fun r => { r with refused := true }).ringSend i 0 { ty := 0x12 } []

/-- REFUSE: a joiner's command ends; other members pass it on, and the member that sent it consumes it. -/
def State.refuseIn (s : State) (i : Nat) (r : Ring) : State :=
  match r.joining with
  | some c => (s.mapJob i fun j => { j with ring := none }).finish c 0x0104
  | none =>
    if r.refused then s.mapRing i fun r => { r with refused := false } else s.ringSend i 0 { ty := 0x12 } []

/-- A joiner has learnt its predecessor's keys. It is refused where a REFUSE came before them, or where its predecessor's
predecessor holds its slot under another JOIN_SALT; else it has joined (R334). -/
def State.welcomed (s : State) (i : Nat) : State :=
  match (s.job i).bind (·.ring) with
  | none => s
  | some r =>
    let occupied := r.pred2.any fun p => p.1 = r.slot && p.2 ≠ r.salt
    if r.joining.isSome && (occupied || r.early.any fun b => (r.decrypt b).isSome) then s.refuseIn i r else s.joined i

/-- FORM: the sender is the predecessor, its keys are learnt, its job is compared. A member that has sent no FORM since the last
boundary answers with its own. So does one that receives its second FORM since then: some member has joined, and each sends a FORM
for it at once and at the next boundary, as does one whose neighbours have changed. DESIGN CHOICE, log 29. -/
def State.formIn (s : State) (i : Nat) (j : Job) (r : Ring) (b : Bytes) : State :=
  let slot := fSender b
  let body := fBody b
  let salt := slice body 32 32
  let back := (fieldAt body 96 2, slice body 64 32)
  if slot = r.slot && salt != r.salt then
    match r.joining with
    | some c => (s.mapJob i fun j => { j with ring := none }).finish c 0x0104
    | none => s.refuse i
  else if slot = r.slot then (s.mapRing i fun r => { r with pred := some (slot, salt), pred2 := some (slot, salt) }).joined i
  else
    let pred2 := if allZero back.2 then none else some back
    let changed := r.pred ≠ some (slot, salt) || r.pred2 ≠ pred2
    let again := r.formed && r.formsIn = 1
    let s := s.mapRing i fun r => { r with pred := some (slot, salt), pred2 := pred2, formsIn := r.formsIn + 1 }
    let same := fieldAt body 0 8 = j.seed && fieldAt body 8 8 = j.exchanges && fieldAt body 16 4 = (s.entry i).gen
    let s := if same || r.joining.isSome then s else s.refuse i
    let s := s.welcomed i
    let s := if !r.formed || again then s.sendForm i else s
    s.mapRing i fun x => { x with formDue := r.formDue || changed || 0 < r.formsIn }

/-- LEAVE: the predecessor's predecessor takes its place. -/
def State.leaveIn (s : State) (i : Nat) : State :=
  s.mapRing i fun r => { r with pred := r.pred2, pred2 := none, formDue := true }

/-! ### The reduce phase (R343-R348) -/

/-- An element of a packet as an F32 code. -/
def packetWord (e c : Nat) : Nat := if e = 0 then 0 else ((decBricked tyE8 c e 0).code .f32 c).1

/-- A magnitude lies beyond the largest E8 value of an exponent. -/
def beyond (x e : Nat) : Bool := let m := magOf x; 0 < cmpMag m.1 m.2 448 ((e : Int) - 127)

/-- Escalation: the exponent and the level after at most three steps. -/
def escalate (mx : Nat) : Nat → Nat → Nat → Nat × Nat
  | 0, e, l => (e, l)
  | f + 1, e, l => if 0 < e && beyond mx e && l < 3 && e ≤ 252 then escalate mx f (e + 2) (l + 1) else (e, l)

/-- The largest finite magnitude among F32 codes. -/
def largest (l : List Nat) : Nat := (l.filter (Fp.isFinite .f32)).foldl (fun a x => max a (x % 2 ^ 31)) 0

/-- A packet of the reduce phase. -/
structure Packet where
  block : Nat
  e : Nat
  contrib : Nat
  level : Nat
  ovf : Bool
  under : Nat
  samples : Nat
  elem : List Nat

def Packet.ofFrame (b : Bytes) : Packet := ⟨fBlock b, fE b, fContrib b, fLevel b, fOvf b, fUnder b, fSamples b, (fBody b).map (·.toNat)⟩

/-- The empty packet of a block (R344). -/
def emptyPacket (k e : Nat) : Packet := ⟨k, e, 0, 0, false, 0, 0, List.replicate 256 0⟩

/-- add_block (R345). -/
def Packet.add (p : Packet) (w : List Nat) (smp : Nat) : Packet :=
  let s := List.zipWith (fun c x => (node false (word32 (packetWord p.e c), 0) (word32 x, 0)).1.toNat) p.elem w
  let mx := largest s
  let e := if p.e = 0 && 0 < mx then min 254 (chooseE mx 448 + 4) else p.e
  let x := escalate mx 3 e p.level
  let codes := s.map fun v => if x.1 = 0 then 0 else (toBricked tyE8 (Fp.dec .f32 v) x.1 0 0).1
  { p with
    e := x.1
    level := x.2
    ovf := p.ovf || s.any fun v => !Fp.isFinite .f32 v || beyond v x.1
    under := min 255 (p.under + (List.zip s codes).countP fun v => v.1 % 2 ^ 31 ≠ 0 && v.2 % 128 = 0)
    elem := codes
    contrib := (p.contrib + 1) % 2 ^ 14
    samples := min 0xFFFFFFFF (p.samples + smp) }

/-- Sends a packet forward; its block is dealt with on this member. -/
def State.sendPacket (s : State) (i plane : Nat) (p : Packet) : State :=
  (s.mapRing i fun r => { r with sent := p.block :: r.sent }).ringSend i plane
    { ty := 0x18, block := p.block, samples := p.samples, low := p.contrib + p.level * 2 ^ 14 + b2n p.ovf * 2 ^ 16, e := p.e, under := p.under }
    (p.elem.map (BitVec.ofNat 8))

/-- The member's words of a block. -/
def State.blockWords (s : State) (j : Job) (k : Nat) : List Nat := (List.range 256).map fun e => s.word j (256 * k + e)

/-- The sample count a present member adds: SAMPLES with the target rows of its last pass (R343). -/
def State.ownSamples (s : State) (j : Job) : Nat :=
  let rows := if j.running then ((j.passes.headD []).map fun q => q.countP fun w => bit w 31).foldl (· + ·) 0 else 0
  min 0xFFFFFFFF (s.samples j + rows)

/-- A member adds its contribution and forwards the packet. -/
def State.addPacket (s : State) (i : Nat) (j : Job) (rings : Nat) (p : Packet) : State :=
  let p' := p.add (s.blockWords j p.block) (s.ownSamples j)
  (s.ringAdd i 2 (p'.level - p.level)).sendPacket i (p.block % rings) p'

/-- The slot that owns a block. -/
def State.ownerOf (s : State) (i : Nat) (r : Ring) (k : Nat) : Nat := blockSlot (s.jobBlocks i) r.members k

/-- The owner finishes the sum of a block (R347). An absent owner's own words stay in its buffer (R342), and G stands in
the ring's state alone. DEDUCED, log 29. -/
def State.finishBlock (s : State) (i : Nat) (j : Job) (p : Packet) (here : Bool) : State :=
  let w := s.blockWords j p.block
  let g := if here then List.zipWith (fun c x => (node false (word32 (packetWord p.e c), 0) (word32 x, 0)).1) p.elem w
    else p.elem.map fun c => word32 (packetWord p.e c)
  let bad := g.any fun v => !Fp.isFinite .f32 v.toNat
  let c := if here then min 0xFFFFFFFF (p.samples + s.ownSamples j) else p.samples
  let s := if here then s.writeBytes (j.gbuf + 1024 * p.block) (g.flatMap fun v => toBytes 4 v.toNat) else s
  let s := s.mapRing i fun r => { r with done := Table.put r.done p.block ⟨g, c⟩, overflow := r.overflow || p.ovf || bad, fromOvf := r.fromOvf || p.ovf }
  (s.ringAdd i 3 p.under).ringAdd i 4 256

def State.holdFrame (s : State) (i : Nat) (b : Bytes) : State := s.mapRing i fun r => { r with held := r.held ++ [b] }

/-- REDUCE (R345, R347). A lone member's own blocks come back to it as it has originated them. -/
def State.reduceIn (s : State) (i : Nat) (j : Job) (r : Ring) (b : Bytes) : State :=
  let p := Packet.ofFrame b
  let k := p.block
  let mine := s.ownerOf i r k = r.slot
  if (!mine && r.sent.contains k) || (Table.find r.done k).isSome || r.decided.isSome then s.ringAdd i 1 1
  else if !r.opened then s.holdFrame i b
  else match r.present with
    | none => s.holdFrame i b
    | some false => if mine then s.finishBlock i j p false else s.sendPacket i (k % r.rings) p
    | some true =>
      if !r.final.contains k then s.holdFrame i b
      else if mine then s.finishBlock i j p true
      else s.addPacket i j r.rings p

/-- A member originates the packets of its predecessor's blocks (R344). -/
def State.originate (s : State) (i : Nat) : State :=
  match s.job i with
  | none => s
  | some j =>
    match j.member with
    | none => s
    | some r =>
      match r.opened, r.pred, r.present with
      | true, some p, some here =>
        let n := s.jobBlocks i
        let a := shareStart n r.members p.1
        (List.range (shareStart n r.members (p.1 + 1) - a)).foldl (fun s t =>
          let k := a + t
          if r.sent.contains k || (here && !r.final.contains k) then s
          else
            let e := emptyPacket k (Table.get 0 r.agreed k)
            if here && p.1 ≠ r.slot then s.addPacket i j r.rings e else s.sendPacket i (k % r.rings) e) s
      | _, _, _ => s

/-- A member opens the exchange that the last pass of its window closes, and is present unless its deadline has
passed (R340, R341). -/
def State.openExchange (s : State) (i : Nat) (own : Bool) : State :=
  match s.job i with
  | none => s
  | some j =>
    match j.member with
    | none => s
    | some r =>
      let here (r : Ring) : Ring := if own && r.present.isNone then { r with present := some (!r.late) } else r
      if r.opened then s.mapRing i here
      else (s.mapRing i fun r => here { r with opened := true }).ringSend i 0 { ty := 0x10 } []

/-! ### The verdict (R349-R351) -/

/-- Every block the member owns is finished, and its own scan is done where it is present. -/
def State.verdictReady (s : State) (i : Nat) (j : Job) (r : Ring) : Bool :=
  let o := s.ownShare i j
  r.opened && (List.range o.2).all (fun t => (Table.find r.done (o.1 + t)).isSome) &&
    (r.present = some false || (r.present = some true && r.folded))

/-- The member's indications: overflow, cause, a checkpoint request. DESC_TYPE as the cause says that the slots are out of
cable order (R333; DESIGN CHOICE, log 29). -/
def State.indications (s : State) (j : Job) (r : Ring) : Bool × Nat × Bool :=
  (r.misord || r.overflow || (r.present = some true && (s.nonfinite j || r.scanBad)),
    if r.misord then 0x0104 else if r.fromOvf then 0x0403 else 0, j.ckReq.isSome)

/-- The cause that a lap 1 carries on: DESC_TYPE before any other, the first one else. -/
def joinCause (old new : Nat) : Nat := if old = 0x0104 || new = 0x0104 then 0x0104 else if old ≠ 0 then old else new

/-- Body of a VERDICT frame. -/
def verdictBody (sigma clean cause : Nat) : Bytes := toBytes 4 sigma ++ toBytes 2 clean ++ toBytes 2 cause

/-- The member sends lap 1 of an attempt. -/
def State.sendLap1 (s : State) (i : Nat) (j : Job) (r : Ring) (attempt : Nat) : State :=
  let x := s.indications j r
  (s.mapRing i fun r => { r with lap1Sent := true, attempt := attempt, seen := some (attempt, r.slot) }).ringSend i 0
    { ty := 0x14, block := r.slot, attempt := attempt, samples := b2n x.1 + 8 * b2n x.2.2 } (verdictBody 0 0 x.2.1)

/-- The member is the leader (R335). -/
def Ring.leader (r : Ring) : Bool := match r.pred with
  | some p => r.slot ≤ p.1
  | none => false

def State.tryLead (s : State) (i : Nat) : State :=
  match s.job i with
  | none => s
  | some j =>
    match j.member with
    | none => s
    | some r => if r.leader && !r.lap1Sent && r.seen.isNone && r.decided.isNone && s.verdictReady i j r then s.sendLap1 i j r r.attempt else s

/-- A decision takes effect on a member (R312, R348). -/
def State.applyVerdict (s : State) (i : Nat) (j : Job) (d : Bool × Nat × Nat × Nat) (ckpt : Bool) : State :=
  let s := s.mapRing i fun r => { r with
    decided := some d
    lastVerdict := some (j.exchanges, d, ckpt)
    ckpt := ckpt
    agreed := r.done.foldl (fun t x =>
      let m := largest (x.2.words.map (·.toNat))
      Table.set 0 t x.1 (if m = 0 then 0 else min 254 (chooseE m 448 + 2))) r.agreed
    stat := if d.1 || d.2.2.2 = 0x0104 then r.stat else { r.stat with lastCause := d.2.2.2 } }
  s.decided i d.1 d.2.1 d.2.2.1 (if d.1 then 0 else if d.2.2.2 = 0x0104 then 0x0104 else if j.sigma = 0 then 0x0404 else 0x0401)

/-- Sends lap 2, then applies the decision. -/
def State.sendLap2 (s : State) (i : Nat) (j : Job) (r : Ring) (d : Bool × Nat × Nat × Nat) (ckpt : Bool) : State :=
  let s := s.ringSend i 0 { ty := 0x14, block := r.slot, attempt := r.attempt, samples := 2 * b2n d.1 + 4 + 8 * b2n ckpt }
    (verdictBody d.2.1 d.2.2.1 d.2.2.2)
  if r.decided.isSome then s else s.applyVerdict i j d ckpt

/-- The decision that a VERDICT body carries. -/
def verdictOf (b : Bytes) : Bool × Nat × Nat × Nat := (bit (fSamples b) 1, fieldAt (fBody b) 0 4, fieldAt (fBody b) 4 2, fieldAt (fBody b) 6 2)

/-- A lap 1 of attempt 0 at a member's first verdict shows two leaders: the member is one of two, or has seen another's
(R333). -/
def Ring.twoLeaders (r : Ring) (a o : Nat) : Bool :=
  a = 0 && r.lastVerdict.isNone && o ≠ r.slot && (r.leader || match r.seen with
    | some (a', o') => a' = 0 && o' ≠ o
    | none => false)

/-- Attempt and originator of a held lap 1. -/
def lapOf (b : Bytes) : Option (Nat × Nat) := if fType b = 0x14 && !bit (fSamples b) 2 then some (fAttempt b, fBlock b) else none

/-- Of two lap-1 frames, the second is consumed for the first: an older attempt, or the same one with a slot that is not
lower (R350). -/
def beaten (x y : Nat × Nat) : Bool := y.1 < x.1 || (y.1 = x.1 && x.2 ≤ y.2)

/-- A lap 1 waits for the member's own blocks; of those that wait, the one that R350 forwards is kept. -/
def State.holdLap (s : State) (i : Nat) (b : Bytes) : State :=
  let me := (fAttempt b, fBlock b)
  s.mapRing i fun r =>
    if r.held.any fun h => (lapOf h).any fun x => beaten x me then r
    else { r with held := (r.held.filter fun h => !((lapOf h).any (beaten me ·))) ++ [b] }

/-- VERDICT lap 1 (R349, R350). -/
def State.lap1In (s : State) (i : Nat) (j : Job) (r : Ring) (b : Bytes) : State :=
  let a := fAttempt b
  let o := fBlock b
  let fl := fSamples b
  let forward (s : State) (samples : Nat) (body : Bytes) : State :=
    (s.mapRing i fun r => { r with seen := some (a, o) }).ringSend i 0 { ty := 0x14, block := o, attempt := a, samples := samples, xnum := some (fXnum b) } body
  if fXnum b ≠ j.exchanges % 2 ^ 32 then
    match r.lastVerdict with
    | some (x, d, ck) =>
      if fXnum b = x % 2 ^ 32 && o ≠ r.slot then
        s.ringSend i 0 { ty := 0x14, block := o, attempt := a, samples := (16 + 2 * b2n d.1 + (fl &&& 0xD)) ||| 8 * b2n ck, xnum := some (fXnum b) } (verdictBody d.2.1 d.2.2.1 d.2.2.2)
      else s.ringAdd i 1 1
    | none => s.ringAdd i 1 1
  else if o = r.slot then
    if r.lap1Sent && a = r.attempt then
      let ovf := bit fl 0
      let cause := if r.misord then 0x0104 else fieldAt (fBody b) 6 2
      let d := match r.decided with
        | some d => d
        | none =>
          if bit fl 4 then verdictOf b
          else if cause = 0x0104 then (false, j.sigma, j.clean, 0x0104)
          else
            let x := decision ovf j.sigma j.clean j.thin j.grow
            (x.1, x.2.1, x.2.2.1, if x.1 then 0 else if cause ≠ 0 then cause else 0x0401)
      s.sendLap2 i j r d (bit fl 3)
    else s
  else
    let r := if r.twoLeaders a o then { r with misord := true } else r
    let s := s.mapRing i fun x => { x with misord := r.misord }
    if r.seen.any fun x => beaten x (a, o) then s
    else match r.decided with
    | some d => forward s ((16 + 2 * b2n d.1 + (fl &&& 0xD)) ||| 8 * b2n r.ckpt) (verdictBody d.2.1 d.2.2.1 d.2.2.2)
    | none =>
      if !s.verdictReady i j r then s.holdLap i b
      else
        let x := s.indications j r
        let cause := joinCause (fieldAt (fBody b) 6 2) x.2.1
        let body := if bit fl 4 then (fBody b).take 8 else verdictBody 0 0 cause
        forward s (fl ||| (b2n x.1 + 8 * b2n x.2.2)) body

/-- VERDICT lap 2: applied once and forwarded; its sender consumes it. -/
def State.lap2In (s : State) (i : Nat) (j : Job) (r : Ring) (b : Bytes) : State :=
  if fBlock b = r.slot || r.decided.isSome then s
  else
    let d := verdictOf b
    let s := s.ringSend i 0 { ty := 0x14, block := fBlock b, attempt := fAttempt b, samples := fSamples b } ((fBody b).take 8)
    s.applyVerdict i j d (bit (fSamples b) 3)

/-! ### Publication (R352, R353) -/

/-- Writes 256 bytes of a block of a W16 vector section, the first or the second half. -/
def State.writeHalf (s : State) (i : Nat) (j : Job) (k : Nat) (half : Bool) (body : Bytes) : State :=
  (s.tuneStages i j).foldl (fun s g =>
    match s.resident g i with
    | none => s
    | some r =>
      match placeOf (s.imageHead r.alt) k with
      | .vec off _ => s.writeBytes (r.alt + off + 256 * b2n half) (body.take 256)
      | .head _ _ _ => s) s

/-- A block of the job's serving copy travels in two frames. -/
def State.twoHalves (s : State) (i : Nat) (j : Job) (k : Nat) : Bool := pubOf j.opt = 1 && !s.isHead i k

/-- PARAM (R353): the block is written into the non-current buffers, and the frame goes on. -/
def State.paramIn (s : State) (i : Nat) (j : Job) (r : Ring) (b : Bytes) : State :=
  let k := fBlock b
  let half := fHalf b
  if s.ownerOf i r k = r.slot then s
  else if r.forwarded.contains (k, half) then s.ringAdd i 1 1
  else if r.decided.isNone || !s.altFree i j then s.holdFrame i b
  else if !j.unwritten.contains k then s.ringAdd i 1 1
  else
    let two := s.twoHalves i j k
    let s := if fUnchanged b then s.writeBlock i j k (s.keptBlock i j k)
      else if two then s.writeHalf i j k half (fBody b) else s.writeBlock i j k ((fBody b).take (if s.isHead i k then 132 else 256))
    let whole := !two || r.forwarded.contains (k, !half)
    let s := s.mapJob i fun j => if whole then { j with unwritten := j.unwritten.filter (· ≠ k) } else j
    let s := s.mapRing i fun r => { r with forwarded := (k, half) :: r.forwarded, agreed := Table.set 0 r.agreed k (fE b) }
    s.ringSend i (k % r.rings) { ty := 0x19, block := k, low := b2n (fUnchanged b) * 2 ^ 17 + b2n half * 2 ^ 18, e := fE b } (fBody b)

/-! ### Receiving the frames of a ring (R325, R330) -/

/-- A frame of the member's ring, in the clear. Frames of the next exchange wait until it is the current one; those
of a closed one are late. -/
def State.ringDeal (s : State) (i : Nat) (b : Bytes) : State :=
  match s.job i with
  | none => s
  | some j =>
    match j.ring with
    | none => s
    | some r =>
      let ty := fType b
      let x := fXnum b
      if ty = 0x11 then s.formIn i j r b
      else if ty = 0x12 then s.refuseIn i r
      else if ty = 0x13 then s.leaveIn i
      else if ty = 0x14 && bit (fSamples b) 2 && fBlock b = r.slot then s
      else if x = (j.exchanges + 1) % 2 ^ 32 then s.holdFrame i b
      else if ty = 0x14 && !bit (fSamples b) 2 then s.lap1In i j r b
      else if x ≠ j.exchanges % 2 ^ 32 then s.ringAdd i 1 1
      else if ty = 0x10 then s.openExchange i false
      else if ty = 0x14 then s.lap2In i j r b
      else if ty = 0x18 then s.reduceIn i j r b
      else s.paramIn i j r b

/-- Deals once more with every frame that is held. -/
def State.retryHeld (s : State) (i : Nat) : State :=
  match (s.job i).bind (·.ring) with
  | some r => r.held.foldl (fun s b => s.ringDeal i b) (s.mapRing i fun r => { r with held := [] })
  | none => s

/-- What follows on a member from an event of its ring. -/
def State.settleRing (s : State) (i : Nat) : State := (((s.originate i).retryHeld i).retryHeld i).tryLead i

/-- What follows on every job of a ring, once leases have gone (R181, R353). -/
def State.settleRings (s : State) : State := s.jobs.foldl (fun s x => if x.2.ring.isSome then s.settleRing x.1 else s) s

/-! ### Commands that make a member absent (R285, R320, R336, R356) -/

/-- CAROUSEL_LEAVE (R336): at the next window boundary; until then the member is absent from an exchange under way, and lets
go what it holds (R345, R356). A job in no ring ends it with DESC_TYPE (DESIGN CHOICE, log 29). -/
def doCarouselLeave : Start := fun k s =>
  let i := handleIdx (k.arg 0 4)
  let a := s.jobStatus k
  match s.job i with
  | none => s.finish k.ref (if a = 0 then 0x0302 else a)
  | some j =>
    if a ≠ 0 then s.finish k.ref a
    else match j.member with
      | none => s.finish k.ref 0x0104
      | some r =>
        if r.leave || j.paused then s.finish k.ref 0x0104
        else
          let s := s.mapRing i fun r => { r with leave := true, leaving := some k.ref, present := if r.opened then some false else r.present }
          if j.atBoundary && !r.opened then s.leaveRing i 0 else s.settleRing i
def execCarouselLeave (c : HostCmd) (s : State) : Res := s.command c 0x41 doCarouselLeave

/-- TUNE_CLOSE (R320). -/
def doTuneClose : Start := fun k s =>
  let i := handleIdx (k.arg 0 4)
  let a := s.jobStatus k
  match s.job i with
  | none => s.finish k.ref (if a = 0 then 0x0302 else a)
  | some j => if a ≠ 0 then s.finish k.ref a else if j.closing.isSome then s.finish k.ref 0x0302 else (s.requestClose i 0 (some k.ref)).settleRing i
def execTuneClose (c : HostCmd) (s : State) : Res := s.command c 0x3B doTuneClose

/-- Steps 1 to 4 of R285: the entry is RETIRING, queued requests end, loads are cancelled, pins dropped, the job is to close. -/
def State.startRetire (s : State) (i : Nat) (c : Option CmdRef) (w : Who) : State :=
  let s := s.setEntry i { s.entry i with st := 3, retire := c, ended := 0 }
  let s := s.audit i 0x0C 0 (s.entry i).gen 0 w
  let s := s.requests.foldl (fun s r =>
    if r.handle ≠ noHandle && handleIdx r.handle = i && !s.inStep r then s.endRequest r 0x0301 false false else s) s
  let s := s.costumes.res.foldl (fun s r =>
    if r.index ≠ i then s
    else
      let s := r.pins.foldl (fun s c => s.finish c 0x0301) s
      if r.loading then s.scrubOut r w else (s.auditUnpin r w).setResident { r with pinned := false, pins := [], again := none }) s
  let s := s.failHeld (·.1 = i) 0x0301
  (s.endRestores (fun h _ => handleIdx h = i) 0x0301).kickLoads.requestClose i 0x0301 none |>.settleRing i

/-- COSTUME_RETIRE: a poisoned entry is rewritten as FREE (R474). -/
def doCostumeRetire : Start := fun k s =>
  let h := k.arg 0 4
  let i := handleIdx h
  let a := s.resolve k.principal h none
  let e := s.entry i
  if e.poisoned && e.customer = k.principal && s.handleOf i = h && e.st = 2 then s.startRetire i (some k.ref) k.who
  else if a ≠ 0 then s.finish k.ref a
  else s.startRetire i (some k.ref) k.who
def execCostumeRetire (c : HostCmd) (s : State) : Res := s.command c 0x21 doCostumeRetire

/-! ### Receiving a frame at a port (R324, R325, R337) -/

/-- A lost predecessor is found when a frame comes from its predecessor (R330, R337). -/
def State.noteSender (s : State) (i : Nat) (r : Ring) (slot : Nat) : State :=
  match r.pred, r.pred2 with
  | some p, some q =>
    if slot = q.1 && p.1 ≠ q.1 && slot ≠ r.slot then
      (s.mapRing i fun r => { r with pred := some q, pred2 := none, formDue := true }).ringAdd i 8 1
    else s
  | _, _ => s

/-- A ring frame that travels forward enters the module. -/
def State.forwardIn (s : State) (ld : Nat) (b : Bytes) : State :=
  match s.jobs.find? fun x => match x.2.ring with
      | some r => r.id = fRing b && (r.joining.isNone || fType b = 0x11 || fType b = 0x12)
      | none => false with
  | none => s.sendForward ld b
  | some (i, j) =>
    match j.ring with
    | none => s.sendForward ld b
    | some r =>
      match r.decrypt b with
      | none => if r.joining.isSome && fType b = 0x12 then s.mapRing i fun r => { r with early := r.early ++ [b] } else s.ringAdd i 6 1
      | some p =>
        let s := if fType b = 0x11 then s else s.noteSender i r (fSender b)
        (s.ringDeal i (b.take 0x40 ++ p)).settleRing i

/-- A ring frame reaches a port: forward at port A; at port B it goes back on the plane, or is turned forward at a
break (R324, R325). -/
def State.ringIn (s : State) (port : Nat) (b : Bytes) : State :=
  let ld := port / 2
  let a := s.port (2 * ld)
  if port % 2 = 1 && a.up && !a.wrap then s.sendFrames (2 * ld) [b] else s.forwardIn ld b

/-- A frame of a type of ring frames. -/
def State.ringRow (s : State) (f : FrameIn) (ty : Nat) : Res :=
  guarded (s.accepts f ty) s (s.received f.port f.bytes fun s => s.ringIn f.port f.bytes)

def execOpenFrame (f : FrameIn) (s : State) : Res := s.ringRow f 0x10
def execForm (f : FrameIn) (s : State) : Res := s.ringRow f 0x11
def execRefuse (f : FrameIn) (s : State) : Res := s.ringRow f 0x12
def execLeave (f : FrameIn) (s : State) : Res := s.ringRow f 0x13
def execVerdict (f : FrameIn) (s : State) : Res := s.ringRow f 0x14
def execReduce (f : FrameIn) (s : State) : Res := s.ringRow f 0x18
def execParam (f : FrameIn) (s : State) : Res := s.ringRow f 0x19

/-! ### Events of an exchange -/

/-- The job of a row, where it is a member of a ring. -/
def State.onMember (s : State) (i : Nat) (f : Job → Ring → Res) : Res :=
  match s.job i with
  | none => .next s
  | some j =>
    match j.member with
    | none => .next s
    | some r => f j r

/-- A block waits for the end of the pass and the fold: it holds head parameters or an owned threshold (R343). -/
def State.foldsFirst (s : State) (i k : Nat) : Bool :=
  s.isHead i k || (s.alphas i).any fun q => (imgQ (s.jobTables i) q).2.1 / 256 = k

/-- The operators and quantizers whose vectors a block contains: input side or not, number, columns. -/
def State.blockVectors (s : State) (i k : Nat) : List (Bool × Nat × Nat) :=
  let b := s.jobTables i
  let meets (p n : Nat) : Bool := p ≠ noParam && p < 256 * (k + 1) && 256 * k < p + n
  ((List.range (imgOps b)).filterMap fun o =>
    let e := imgOp b o
    if meets e.1 e.2.2 || meets e.2.1 e.2.2 then some (false, o, e.2.2) else none) ++
  (List.range (imgQs b)).filterMap fun q =>
    let e := imgQ b q
    if meets e.1 e.2.2 then some (true, q, e.2.2) else none

/-- For each tile of every operator or quantizer whose vectors the block contains, the additions of the pass have landed from
every group that is due (R343). -/
def State.hasLanded (s : State) (i k : Nat) (j : Job) : Bool :=
  (s.blockVectors i k).all fun v => (List.range (ceilDiv v.2.2 128)).all fun n => j.due.all fun g => j.landed.contains (v.1, v.2.1, n, g)

/-- BLOCK_FINAL (R343): a block of a present member's last pass is final, once the additions that the module counts have landed;
one that waits for the fold, once the fold is done. -/
def execBlockFinal (job block : Nat) (s : State) : Res :=
  s.onMember job fun j r =>
    guarded (r.opened && r.present = some true && !r.final.contains block && block < s.jobBlocks job &&
        s.hasLanded job block j &&
        (if s.foldsFirst job block then r.folded else r.folded || (j.running && j.passes.length = 1) || j.window = .closing)) s
      ((s.mapRing job fun r => { r with final := block :: r.final }).settleRing job)

/-- DEADLINE_EXPIRY (R341): presence no longer changes; an absent member lets go what it holds. -/
def execDeadlineExpiry (job : Nat) (s : State) : Res :=
  s.onMember job fun _ r =>
    guarded (r.opened && !r.late) s
      ((s.mapRing job fun r => { r with late := true, present := some (r.present.getD false) }).settleRing job)

/-- HOLD_EXPIRY (R347): the packet of an owned block has not come within H, and an empty one takes its place. -/
def execHoldExpiry (job block : Nat) (s : State) : Res :=
  s.onMember job fun j r =>
    let has (f : Bytes) : Bool := fType f = 0x18 && fBlock f = block
    guarded (r.opened && s.ownerOf job r block = r.slot && block < s.jobBlocks job && (Table.find r.done block).isNone && !r.held.any has) s
      (let head := toBytes 8 0x18 ++ toBytes 8 r.id ++ toBytes 4 j.exchanges ++ toBytes 3 block ++ zeros 9 ++
         toBytes 1 (Table.get 0 r.agreed block) ++ zeros 31
       (s.ringDeal job (head ++ zeros 256)).settleRing job)

/-- VERDICT_TIMEOUT (R350): a member without lap 2 sends a lap 1 of the next attempt. -/
def execVerdictTimeout (job : Nat) (s : State) : Res :=
  s.onMember job fun j r =>
    guarded (r.decided.isNone && s.verdictReady job j r && r.attempt < 255) s (s.sendLap1 job j r (r.attempt + 1))

/-- WINDOW_END (R313). -/
def execWindowEnd (job : Nat) (s : State) : Res :=
  match s.job job with
  | none => .next s
  | some j =>
    let again := match j.member with
      | some r => r.folded
      | none => false
    guarded (j.window = .closing && !j.running && !j.updating && !j.broken && !again) s ((s.endWindow job j).settleRing job)

/-- PARAM_TIMEOUT (R353): a block without a PARAM is copied from the current buffer and counted as frozen. -/
def execParamTimeout (job block : Nat) (s : State) : Res :=
  s.onMember job fun j r =>
    let has (f : Bytes) : Bool := fType f = 0x19 && fBlock f = block
    guarded (j.updating && r.decided.isSome && j.unwritten.contains block && s.ownerOf job r block ≠ r.slot && s.altFree job j &&
        !r.held.any has) s
      (((s.writeBlock job j block (s.keptBlock job j block)).mapJob job fun j => { j with unwritten := j.unwritten.filter (· ≠ block) }).ringAdd job 5 1)

/-- PUBLICATION_SWITCH (R181): once every block is written. A job that has left its ring keeps the blocks whose
optimizer state it does not hold (DESIGN CHOICE, log 29). -/
def execPublicationSwitch (job : Nat) (s : State) : Res :=
  match s.job job with
  | none => .next s
  | some j =>
    let mine (k : Nat) : Bool := j.member.isSome || j.shards.any fun h => h.first ≤ k && k < h.first + h.count
    guarded (j.updating && j.left.isEmpty && !j.unwritten.any mine && s.altFree job j) s
      (((j.unwritten.foldl (fun s k => s.writeBlock job j k (s.keptBlock job j k)) s).switchBuffers job j).settleRing job)

/-! ### Ports and stale transactions (R324, R393, R395) -/

/-- PORT_DOWN (R324): the module wraps the plane; ring frames not acknowledged go the wrap path, pipeline frames stay
until the port has trained; the IN routes of the port forget their epochs. -/
def State.portDown (s : State) (port : Nat) : State :=
  let q := s.port port
  let ld := port / 2
  let all := q.retrans ++ q.waiting
  let pipe (l : List Bytes) : List Bytes := l.filter fun b => fType b = 1
  let s := s.setPort port { Port.init with wrap := true, retrans := pipe q.retrans, waiting := pipe q.waiting, pipes := q.pipes }
  let s := (List.range 16).foldl (fun s g =>
    if (s.stage g).ins.any (fun r => r.port = port) then
      s.setStage g { s.stage g with ins := (s.stage g).ins.map fun r => if r.port = port then { r with epoch := none } else r }
    else s) s
  let s := s.jobs.foldl (fun s x =>
    match x.2.ring with
    | some r => if ld < r.rings then (s.mapRing x.1 fun r => { r with formDue := r.formDue || ld = 0 }).ringAdd x.1 7 1 else s
    | none => s) s
  (all.filter ringFrame).foldl (fun s b => if port % 2 = 1 then s.sendFrames (2 * ld) [b] else s.forwardIn ld b) s
def execPortDown (port : Nat) (s : State) : Res :=
  let q := s.port port
  guarded (port < 2 * s.dev.part.lds && q.trained && (16 ≤ q.fails || q.lockLost)) s
    (if q.up then s.portDown port else s.setPort port { q with trained := false, lockLost := false })

/-- STALE_TRANSACTION (R393): a die discards a transaction of an old epoch. -/
def execStaleTransaction (die stage epoch : Nat) (s : State) : Res :=
  guarded (s.dev.part.hasDie die && stage < 16 && epoch ≠ (s.stage stage).epoch) s (s.addStale die)

end Sys2Proof.Machine
end

