-- ==== Sys2Proof/Machine/Mov.lean ====
section
/-! DEFINITION. Mov.lean: the data movers: COPY, CONVERT, QUANT and GATHER (ch. Tensor descriptors R207-R218;
ch. Tile programs R246). -/

namespace Sys2Proof.Machine

/-! ### Operands -/

/-- What a MOV works on: descriptors, origins, block extents of source and destination, and the address in AREG. -/
structure MovOps where
  s : Desc
  so : List Int
  d : Desc
  d0 : List Int
  ext : List Nat
  dext : List Nat
  excess : Bool                  -- extents differ in a dimension that one of the tensors lacks
  past : Bool
  areg : Nat

/-- Dimensions 0 and 1 exchanged (R212). -/
def swap01 {α : Type} : List α → List α
  | a :: b :: r => b :: a :: r
  | l => l

def Cluster.movOps (c : Cluster) (f : MovF) : MovOps :=
  let s := c.desc f.sdesc
  let d := c.desc f.ddesc
  let ext := extentOf c f.ereg s.rank
  let full := ext ++ List.replicate (6 - ext.length) 1
  let out := if f.trans then swap01 full else full
  { s := s, so := originOf c f.sreg s.rank, d := d, d0 := originOf c f.dreg d.rank, ext := ext
    dext := out.take d.rank, excess := (out.drop d.rank).any (· ≠ 1)
    past := groupPast f.sreg s.rank || groupPast f.dreg d.rank || groupPast f.ereg s.rank
    areg := (c.sreg f.areg).toNat }

/-- Source index of a destination index. -/
def srcIndex (trans : Bool) (t : List Nat) : List Nat := if trans then swap01 t else t

/-- Two byte ranges share a byte. -/
def rangesMeet (x y : List (Int × Int)) : Bool := x.any fun a => y.any fun b => a.1 ≤ b.2 && b.1 ≤ a.2

/-- Kinds of operation (Table Mover operation kinds), coded as in KIND. -/
def kindOk (kind : Nat) (s d : Desc) : Bool :=
  match kind with
  | 0 => s.ty = d.ty && s.brick == d.brick
  | 1 => !d.brick && d.ty < 4
  | 2 => !s.brick && (s.ty = tyF32 || s.ty = tyW16)
  | _ => !d.brick && (d.ty = tyF32 || d.ty = tyW16 || d.ty = tyE8)

/-- The index list of a GATHER lies in the issuing cluster's operand memory (R211). -/
def State.listOk (s : State) (cl a n : Nat) : Bool :=
  regionOf s.dev.part a (a + max (4 * n) 1 - 1 : Nat) = some (.operand cl)

/-- Checks of a MOV before any data moves (R191, R209-R211, R231, R200, R66). -/
def State.movCheck (s : State) (kind : Nat) (i : Issue) (f : MovF) (p : MovOps) : Nat :=
  let bad (c : Bool) (n : Nat) : Nat := if c then n else 0
  firstStatus [
    s.validate i.cl (.mover f.mover) false false p.s,
    s.validate i.cl (.mover f.mover) true false p.d,
    bad p.past 0x0103,
    bad (p.excess || (f.trans && (p.s.rank < 2 || p.d.rank < 2))) 0x0103,
    bad (kind = 3 && (f.trans || p.s.rank ≠ 2 || p.d.rank ≠ 2)) 0x0103,
    bad (p.s.brick && (nth 0 p.so 0 % 16 ≠ 0 || (kind ≠ 3 && nth 0 p.so 1 % 16 ≠ 0))) 0x0101,
    bad (p.d.brick && (!aligned16 p.d0 || nth 0 p.dext 0 % 16 ≠ 0 || nth 0 p.dext 1 % 16 ≠ 0)) 0x0101,
    bad (!kindOk kind p.s p.d) 0x0104,
    if kind = 2 then s.qcheck (s.qrec p.areg) p.d else 0,
    bad (kind = 3 && p.areg % 64 ≠ 0) 0x0101,
    bad (kind = 3 && !s.listOk i.cl p.areg (nth 0 p.dext 1)) 0x0104,
    bad (rangesMeet (p.s.footprint false) (p.d.footprint true)) 0x0102 ]

/-! ### Moving data -/

/-- How far a MOV has come: the state, dropped positions, reserved T2 decodes, the status that stopped it. -/
structure Moving where
  s : State
  dropped : Nat
  reserved : Nat
  stop : Nat
  moved : Nat                    -- positions moved, or bricks' worth of them
  records : List (Nat × Nat)     -- writes of chain records, by address, still to be made

/-- One unbricked element: the cell read and the code it becomes; a cell that fails ends the operation (R205). -/
def Moving.elem (m : Moving) (d : Desc) (i : List Int) (c : Cell) (res : Nat) (code : Nat) : Moving :=
  if m.stop ≠ 0 then m
  else if c.st ≠ 0 then { m with stop := c.st }
  else
    let m := { m with reserved := m.reserved + res, moved := m.moved + 1 }
    let a := (d.addr i).toNat
    let here : Bool := d.inb i || (d.inPad i && d.padw)
    match here, regionAt m.s.dev.part a with
    | true, some (.chains _ _) => { m with records := (a, if d.inb i then code else d.fillCode) :: m.records }
    | _, _ =>
      let w := m.s.putElem d i code
      { m with s := w.1, dropped := m.dropped + w.2 }

/-- Writes the chain records of a MOV in ascending address, each on its own (R128): the state, and whether one was
refused. -/
def State.putRecords (s : State) (l : List (Nat × Nat)) : State × Bool :=
  (sortPairs l).foldl (fun w p =>
    let no : Bool := match regionAt s.dev.part p.1 with
      | some (.chains cl t) => !((w.1.cluster cl).arr t).recordOk (w.1.windowed cl t) (p.1 / 8 % 64) p.2
      | _ => false
    (w.1.putRaw p.1 8 p.2, w.2 || no)) (s, false)

/-- Code of a converted element (R52, R54). -/
def convertCode (s d : Desc) (c : Cell) : Nat :=
  if d.ty = tyF64 then (if s.ty = tyF64 && !s.brick then c.code else c.f64 s)
  else if s.ty = tyF64 && !s.brick then (encodePlain d.ty d.ovf true 0 c.code).1
  else (encodePlain d.ty d.ovf false 0 (c.f32 s 0).1).1

/-- Moves a block into an unbricked destination, element by element. -/
def State.moveElems (s : State) (kind : Nat) (trans : Bool) (p : MovOps) (idx : Nat → Nat) : Moving :=
  (positions p.dext).foldl (fun m t =>
    if m.stop ≠ 0 then m
    else
      let t' := srcIndex trans t
      let si := if kind = 3 then [nth 0 p.so 0 + nth 0 t 0, (idx (nth 0 t 1) : Int)] else plus p.so (t' ++ List.replicate 6 0)
      let c := m.s.cell p.s si
      m.elem p.d (plus p.d0 t) c (if kind ≠ 0 then b2n (c.reserved p.s) else 0)
        (if kind = 0 then c.code else convertCode p.s p.d c)) ⟨s, 0, 0, 0, 0, []⟩

/-- The header that a read of a brick delivers, with its tag cleared of meaning: stored, clamped or synthesized
(R197); the status of its check. -/
def State.headerAt (s : State) (d : Desc) (i : List Int) : Nat × Nat :=
  let at' : List Int → Nat × Nat := fun i =>
    let off := d.offset i
    let h := s.readLE (d.hdrAddr off) 4
    let r := checkHdr h (brickTag (d.brickAddr off))
    (if s.poisoned (d.hdrAddr off) 4 then 0x0702 else r.1, h)
  if d.inBrick i then at' i
  else if d.oob then at' (d.clamp i)
  else (0, mkHdr (bits d.fill 0 8) (bits d.fill 8 4) 0 false false false)

/-- The stored sum-stream entry of a brick. -/
def State.sumEntry (s : State) (d : Desc) (i : List Int) : List Int :=
  (List.range 16).map fun k => signed (s.readLE (d.sumAddr (d.offset i) + 2 * k) 2) 16

/-- Copies one brick (R49, R200, R208, R212). In a brick with the OUTLIER flag the channels of the destination's outlier map
are written as zero (R46). A source brick that reads as zero under case 3 of R43 keeps its header, and its stored codes are
copied, though R44 lets a mover skip their fetch. DESIGN CHOICE, log 57. -/
def Moving.brick (m : Moving) (trans : Bool) (p : MovOps) (b : List Nat) : Moving :=
  let b0 := 16 * nth 0 b 0 :: 16 * nth 0 b 1 :: b.drop 2
  let di := plus p.d0 b0
  let si := plus p.so (srcIndex trans b0 ++ List.replicate 6 0)
  if m.stop ≠ 0 then m
  else if !p.d.inBrick di then { m with dropped := m.dropped + 256 }
  else
    let s := m.s
    let h := s.headerAt p.s si
    let cells := (List.range 256).map fun k =>
      let rc := if trans then (k % 16, k / 16) else (k / 16, k % 16)
      s.cell p.s (plus si [rc.2, rc.1, 0, 0, 0, 0])
    let st := firstStatus (h.1 :: cells.map (·.st))
    if st ≠ 0 then { m with stop := st }
    else
      let ch := if (p.d.ty = tyN4 || p.d.ty = tyT2) && p.d.omap ≠ 0 && bit h.2 19 then s.mapChannels p.d.omap else []
      let out : Nat → Bool := fun k => ch.contains (nth 0 di 1 + ((k / 16 : Nat) : Int)).toNat
      let codes := cells.zipIdx.map fun c =>
        if out c.2 then 0
        else if p.d.inb (plus di [c.2 % 16, c.2 / 16, 0, 0, 0, 0]) then c.1.code else zeroCode p.d.ty (hdrZp h.2)
      let whole := p.s.inb si && p.s.inb (plus si [15, 15, 0, 0, 0, 0])
      let kept := p.s.sums = p.d.sums && !trans && whole && !((List.range 256).any fun k => out k && (nth ⟨0, 0, 0, 0, false⟩ cells k).code ≠ 0)
      if (p.d.sums ≠ 0 && kept && s.poisoned (p.s.sumAddr (p.s.offset si)) 32) || (!ch.isEmpty && s.mapPoisoned p.d.omap) then
        { m with stop := 0x0702 }
      else
      let sums := if p.d.sums = 0 then none
        else some (if kept then s.sumEntry p.s si else brickSums p.d.ty p.d.sums (sumCodes p.d.ty h.2 codes))
      { m with s := s.putBrick p.d (p.d.offset di) h.2 codes sums, moved := m.moved + 256
               reserved := m.reserved + (if p.d.sums ≠ 0 && !kept then cells.countP (Cell.reserved p.s) else 0) }

def State.moveBricks (s : State) (trans : Bool) (p : MovOps) : Moving :=
  let be := nth 0 p.dext 0 / 16 :: nth 0 p.dext 1 / 16 :: p.dext.drop 2
  (positions be).foldl (fun m b => m.brick trans p b) ⟨s, 0, 0, 0, 0, []⟩

/-- QUANT: the source read as F32, through the quantizer record at AREG. Poisoned source data stops it before it
writes anything (R205: a mover keeps what it wrote before; here it has written nothing). -/
def State.moveQuant (s : State) (cl : ClusterId) (trans : Bool) (p : MovOps) : Moving :=
  let read : List Nat → Cell := fun t => s.cell p.s (plus p.so (srcIndex trans t ++ List.replicate 6 0))
  let st := firstStatus ((positions p.dext).map fun t => (read t).st)
  if st ≠ 0 then ⟨s, 0, 0, st, 0, []⟩
  else
    let v := { s.quantEnv cl p.areg with ue := cl / 16 }
    let x : List Nat → Option Nat := fun t => some ((read t).f32 p.s 0).1
    let w :=
      if p.d.brick then s.quantBlock v p.d p.d0 p.dext x
      else
        let ch := if v.q.outEn then s.mapChannels v.q.omap else []
        (positions p.dext).foldl (fun (w : State × Nat) t =>
          let r := w.1.quantElem v p.d ch (plus p.d0 t) (x t)
          (r.1, w.2 + r.2)) (s.sideHeader v, 0)
    ⟨w.1, w.2, 0, 0, 0, []⟩

/-! ### Counters (R218) and interlocks (R144) -/

/-- Lines of 64 bytes that a set of ranges touches, joined where they follow one another. -/
def linesOf (l : List (Nat × Nat)) : Nat :=
  (joinRanges (sortPairs l)).foldl (fun n r => n + ((r.1 + r.2 + 63) / 64 - r.1 / 64)) 0

/-- Source positions of a MOV: the rows that a GATHER names, or the source block. -/
def State.movSource (s : State) (kind : Nat) (p : MovOps) : List (List Int) :=
  if kind = 3 then
    (positions p.dext).map fun t =>
      let row : Nat := s.readLE (p.areg + 4 * nth 0 t 1) 4
      [nth 0 p.so 0 + nth 0 t 0, (row : Int)]
  else (positions p.ext).map (plus p.so)

/-- An accumulation or a merge is in flight on a slot that a MOV reads or writes (R144). -/
def State.movBusy (s : State) (kind : Nat) (p : MovOps) : Bool :=
  s.windowBusy p.s false (s.movSource kind p) || s.windowBusy p.d true ((positions p.dext).map (plus p.d0))

/-! ### The instructions -/

/-- A MOV that has begun joins its mover with a status and what it uses. -/
def State.movEntry (s : State) (i : Issue) (f : MovF) (st : Nat) (slots : List Nat := []) (rslots : List Nat := []) : State :=
  s.push i.cl (8 + f.mover)
    { s.entryFor i 0x30 false 0 with status := st, parity := st = 0x0702, slots := slots, rslots := rslots }

/-- Bricks or elements that an operation which stopped has assembled for its destination. -/
def assembled (moved : Nat) (dext : List Nat) (o : List Int) (d : Desc) : List (Nat × Nat) :=
  if d.brick then
    let be := nth 0 dext 0 / 16 :: nth 0 dext 1 / 16 :: dext.drop 2
    ((positions be).take (moved / 256)).flatMap fun b =>
      Desc.written d (plus o (16 * nth 0 b 0 :: 16 * nth 0 b 1 :: b.drop 2)) (16 :: 16 :: List.replicate (d.rank - 2) 1)
  else ((positions dext).take moved).filterMap fun t =>
    let i := plus o t
    if d.inb i || (d.inPad i && d.padw) then some ((d.addr i).toNat, d.unit) else none

/-- The work of a MOV. -/
def State.movWork (s : State) (kind : Nat) (i : Issue) (f : MovF) : State :=
  let die := i.cl / 16
  let p := (s.cluster i.cl).movOps f
  let st := s.movCheck kind i f p
  let slots := s.slotIds p.d true ((positions p.dext).map (plus p.d0))
  let rslots := s.slotIds p.s false (s.movSource kind p)
  if st ≠ 0 then (s.descFault i.cl f.mover st).movEntry i f st
  else if s.movBusy kind p then s.movEntry i f 0x0202
  else if kind = 3 && s.poisoned p.areg (4 * nth 0 p.dext 1) then s.movEntry i f 0x0702
  else
    let m := if kind = 2 then s.moveQuant i.cl f.trans p
      else if p.d.brick then s.moveBricks f.trans p
      else s.moveElems kind f.trans p fun j => s.readLE (p.areg + 4 * j) 4
    let lines := if m.stop ≠ 0 then assembled (if p.d.brick then m.moved + m.dropped else m.moved) p.dext p.d0 p.d else Desc.written p.d p.d0 p.dext
    let narrow := if f.trans || (p.s.legacy && p.s.step 0 ≠ p.s.unit) then linesOf lines else 0
    let read := if m.stop ≠ 0 then m.moved else p.dext.foldl (· * ·) 1
    let w := nth 0 p.ext 0
    let row : Nat → Nat := fun j => s.readLE (p.areg + 4 * j) 4
    let legacy := if kind = 3 then
        ((List.range (nth 0 p.dext 1)).map fun j => legacyPairs p.s [nth 0 p.so 0, (row j : Int)] [w, 1] (read - j * w)).sum
      else legacyPairs p.s p.so p.ext read
    let r := m.s.putRecords m.records
    let s := (r.1.addDrops die f.mover m.dropped).addReserved die m.reserved
    let s := s.addSlow die narrow legacy
    let s := (if p.d.brick || m.stop ≠ 0 then s else s.clearRows p.d p.d0 p.dext).pipeBlock (s.stageOfDie die) p.d p.d0 p.dext
    if m.stop ≠ 0 then (s.descFault i.cl f.mover m.stop).movEntry i f m.stop slots rslots
    else s.movEntry i f (if r.2 then 0x0202 else 0) slots rslots

/-- A MOV may begin: it does not wait for an accumulation or a merge on a slot, unless its checks fail first (R144, R191). -/
def State.movMay (s : State) (kind : Nat) (i : Issue) (f : MovF) : Bool :=
  let p := (s.cluster i.cl).movOps f
  f.nowait || s.movCheck kind i f p ≠ 0 || !s.movBusy kind p

/-- A MOV begins, on what it reads of memory (R51). -/
def State.movStart (s : State) (kind : Nat) (i : Issue) (f : MovF) : State :=
  let p := (s.cluster i.cl).movOps f
  s.marked i.cl (8 + f.mover) (if kind = 2 then [p.areg] else []) [p.d] [p.s] (s.racing i.cl (8 + f.mover) fun s => s.movWork kind i f)

/-- A MOV issues when its mover has room: it begins at once when the mover holds no other and it need not wait; else it
waits in the mover's queue for its turn (R144, R214, R216; DESIGN CHOICE, log 18). -/
def State.mov (s : State) (kind : Nat) (i : Issue) (f : MovF) : Res :=
  guarded (s.canIssue i.cl (TileWord.mov kind i f) && s.room i.cl (8 + f.mover)) s
    (if (s.unitQueue i.cl (8 + f.mover)).isEmpty && s.movMay kind i f then s.movStart kind i f
     else s.enqueue i.cl (8 + f.mover) i 0x30 (.mov kind i f) [])

def execMovCopy (i : Issue) (f : MovF) (s : State) : Res := s.mov 0 i f
def execMovConvert (i : Issue) (f : MovF) (s : State) : Res := s.mov 1 i f
def execMovQuant (i : Issue) (f : MovF) (s : State) : Res := s.mov 2 i f
def execMovGather (i : Issue) (f : MovF) (s : State) : Res := s.mov 3 i f

/-! ### Beginning and completion (R226, R227) -/

/-- What an instruction that waited does once it begins. -/
def State.startWork (s : State) : Work → State
  | .vec fn i f => s.vecStart fn i f
  | .mov kind i f => s.movStart kind i f

/-- It may begin, with the registers and descriptors that it took at issue. -/
def State.mayStart (s : State) (cl : Nat) (t : Taken) : Bool :=
  let s := s.setCluster cl { s.cluster cl with sregs := t.sregs, dslots := t.dslots }
  match t.work with
  | .vec fn i f => s.vecMay fn i f
  | .mov kind i f => s.movMay kind i f

/-- The first instruction of a unit's queue begins, if it has not yet begun and may. -/
def State.beginNext (s : State) (cl unit : Nat) : State :=
  match s.unitQueue cl unit with
  | e :: rest =>
    match e.taken with
    | some t => if s.mayStart e.cluster t then s.beginFirst unit e t rest fun s => s.startWork t.work else s
    | none => s
  | [] => s

/-- INSTRUCTION_COMPLETION (R227): an instruction that has waited for its turn begins, if it is the first of its unit; then
the oldest finished instruction of the cluster completes, and the next of the unit begins. -/
def execInstructionCompletion (cl unit : Nat) (s : State) : Res :=
  let s := s.beginNext cl unit
  match takeDone (fun e => e.cluster == cl && s.shipped e) (s.unitQueue cl unit) with
  | some (e, q) => .next ((s.complete cl unit e q).beginNext cl unit)
  | none => .next s

end Sys2Proof.Machine
end

