-- ==== Sys2Proof/Machine/Steps.lean ====
section
/-! DEFINITION. Steps.lean: how the Puppeteer builds, starts, completes, aborts and replays the steps of a stage,
and the end of a costume load (ch. Costumes R274-R278; ch. Tuning passes R296; ch. Rigging R398, R399;
ch. Host interface R428-R430; ch. Parity R477). -/

namespace Sys2Proof.Machine

/-! ### Groups (R277) -/

/-- Rows that may share a group have equal keys: a costume, or a session's rows under none; a request's own rows
where its costume is ISOLATE. -/
abbrev GroupKey := Nat × Nat
/-- Groups of a step as it is built, each with its key. -/
abbrev Building := List (GroupKey × Group)

def emptyGroup (handle : Nat) : Group := ⟨handle, 0, 0, none, 0, []⟩

def State.groupKey (s : State) (r : Request) : GroupKey :=
  if r.handle = noHandle then (noHandle, r.cmd.1 + 1)
  else if (s.entry (handleIdx r.handle)).isolate then (r.handle, 2 ^ 32 + r.id) else (r.handle, 0)

/-- A group takes one more row under a key. -/
def takes (k : GroupKey) (x : GroupKey × Group) : Bool := x.1 = k && x.2.job.isNone && x.2.rows.length < 16
def withRow (x : GroupKey × Group) (r : Row) : GroupKey × Group := (x.1, { x.2 with rows := x.2.rows ++ [r] })

/-- A row in the first group that takes it. -/
def joinRow (k : GroupKey) (r : Row) : Building → Option Building
  | [] => none
  | x :: l => if takes k x then some (withRow x r :: l) else (joinRow k r l).map (x :: ·)

/-- A row in a group of its own, while the step may hold one more. -/
def openGroup (cap : Nat) (k : GroupKey) (r : Row) (l : Building) : Option Building :=
  if l.length < cap then some (l ++ [(k, { emptyGroup k.1 with rows := [r] })]) else none

/-- A decode row. -/
def placeDecode (cap : Nat) (k : GroupKey) (r : Row) (l : Building) : Option Building :=
  match joinRow k r l with
  | some x => some x
  | none => openGroup cap k r l

/-- Prefill rows in token order from the last group on: the rows placed, and the groups. -/
def placeRun (cap : Nat) (k : GroupKey) : List Row → Building → Nat × Building
  | [], l => (0, l)
  | r :: rest, l =>
    let x := match l.getLast? with
      | some y => if takes k y then some (l.dropLast ++ [withRow y r]) else openGroup cap k r l
      | none => openGroup cap k r l
    match x with
    | some l' => let z := placeRun cap k rest l'; (z.1 + 1, z.2)
    | none => (0, l)

/-! ### The rows of a request (R428) -/

/-- A request still places its prompt. -/
def Request.prefilling (r : Request) : Bool := r.placed < r.prompt.length

/-- The rows that a request may place next. -/
def Request.nextRows (r : Request) : List Row :=
  let n := r.prompt.length
  if r.prefilling then
    (List.range (n - r.placed)).map fun j =>
      ⟨r.id, r.placed + j, nth 0 r.prompt (r.placed + j), r.placed + j + 1 = n && 1 ≤ r.maxNew, false⟩
  else [⟨r.id, r.placed, r.emitted.getLastD 0, true, false⟩]

/-- A request's costume can be leased. -/
def State.servable (s : State) (r : Request) : Bool :=
  r.handle = noHandle ||
    ((s.entry (handleIdx r.handle)).st = 2 && match s.resident r.stage (handleIdx r.handle) with
      | some x => x.st = .resident
      | none => false)

/-- A request can be admitted now, or has been (R427). -/
def State.admissible (s : State) (r : Request) : Bool :=
  s.servable r && (r.kvFirst.isSome || (s.kvRun r.stage r.kvPages).isSome)

/-- Reserves the pages of a request and puts it after those admitted before (R399 item 1). -/
def State.takeIn (s : State) (r : Request) : State :=
  match r.kvFirst, s.kvRun r.stage r.kvPages with
  | none, some f =>
    let rest := s.requests.filter fun x => x.id ≠ r.id
    { s with requests := rest.filter (·.kvFirst.isSome) ++ [{ r with kvFirst := some f }] ++ rest.filter (·.kvFirst.isNone) }
  | _, _ => s

/-- Places what a step can hold of a request. -/
def State.placeRequest (s : State) (cap : Nat) (r : Request) (l : Building) : State × Building :=
  let k := s.groupKey r
  if !s.admissible r then (s, l)
  else
    let x := match r.nextRows with
      | [row] => if r.prefilling then placeRun cap k [row] l else match placeDecode cap k row l with
        | some l' => (1, l')
        | none => (0, l)
      | rows => placeRun cap k rows l
    if x.1 = 0 then (s, l) else (s.takeIn r, x.2)

/-! ### Tuning passes (R296) -/

/-- Tuning rows of a pass: whole groups. -/
def passRows (iso : Bool) (p : List (List Nat)) : Nat :=
  16 * (if iso then (p.map fun q => ceilDiv q.length 16).foldl (· + ·) 0 else ceilDiv ((p.map List.length).foldl (· + ·) 0) 16)

/-- Passes of whole sequences in feed order. -/
def divide (iso : Bool) (max : Nat) : List (List Nat) → List (List Nat) → List (List (List Nat))
  | [], cur => if cur.isEmpty then [] else [cur]
  | q :: r, cur => if !cur.isEmpty && max < passRows iso (cur ++ [q]) then cur :: divide iso max r [q] else divide iso max r (cur ++ [q])

/-- The passes that are left of a job's first feed. -/
def State.passesOf (s : State) (i : Nat) (j : Job) : List (List (List Nat)) :=
  if !j.passes.isEmpty then j.passes
  else match j.feeds with
    | f :: _ => divide (s.entry i).isolate (((s.stage j.stage).cfg.map (·.maxTrows)).getD 0) f.seqs []
    | [] => []

/-- Rows of a sequence: TOKEN takes bits [30:0] of a word (DEDUCED, log 27). -/
def seqRows (n : Nat) (q : List Nat) : List Row := q.zipIdx.map fun w => ⟨n, w.2, w.1 % 2 ^ 31, false, bit w.1 31⟩

def sixteens (l : List Row) : List (List Row) := (List.range (ceilDiv l.length 16)).map fun k => (l.drop (16 * k)).take 16

/-- Tuning groups of a pass. -/
def State.tuneGroups (s : State) (i : Nat) (j : Job) (p : List (List Nat)) : List Group :=
  let seqs := p.zipIdx.map fun q => seqRows q.2 q.1
  let rows := if (s.entry i).isolate then seqs.flatMap sixteens else sixteens seqs.flatten
  rows.map fun l => { emptyGroup j.handle with job := j.number, gbuf := j.gbuf, rows := l }

/-- The pass that a job may start in its stage for a session, none when it may start none (R290, R314, R399). -/
def State.readyPass (s : State) (g q : Nat) (x : Nat × Job) : Option (List (List Nat)) :=
  let j := x.2
  let held := (j.stage :: j.follow).all fun h => (s.stage h).st ≠ 2 || (s.tuneStages x.1 j).contains h
  let mine := match j.feeds with
    | f :: _ => f.cmd.1 = q
    | [] => false
  if j.stage = g && j.active && !j.paused && !j.broken && !j.ckDue && !j.running && j.window = .open && !j.updating && mine &&
      (j.closing.isNone || j.started) && held then (s.passesOf x.1 j).head? else none

/-- The session's job of lowest index that may start a pass. -/
def State.tuneChoice (s : State) (g q : Nat) : Option (Nat × List (List Nat)) :=
  s.jobs.findSome? fun x => (s.readyPass g q x).map fun p => (x.1, p)

/-! ### Time-slicing (R398, R399) -/

/-- Sessions with work on a stage, ascending. -/
def State.stageSessions (s : State) (g : Nat) : List Nat :=
  sortNats ((s.requests.filter fun r => r.stage = g).map (·.cmd.1) ++
    (s.jobs.filter fun x => x.2.stage = g).flatMap fun x => x.2.feeds.map (·.cmd.1))

/-- A session has work that the stage can take in. -/
def State.hasWork (s : State) (g q : Nat) : Bool :=
  (s.requests.any fun r => r.stage = g && r.cmd.1 = q && s.admissible r) || (s.tuneChoice g q).isSome

/-- The cycle of sessions from one on. -/
def cycleFrom (l : List Nat) (q : Nat) : List Nat := l.filter (q ≤ ·) ++ l.filter (· < q)

/-- The lead of the next step and the steps run in its turn (R398). -/
def State.leadOf (s : State) (g : Nat) : Nat × Nat :=
  let t := s.stage g
  let quantum := match t.cfg with
    | some c => if c.quantum = 0 then 8 else c.quantum
    | none => 8
  let l := s.stageSessions g
  if !t.turnOver && s.hasWork g t.lead && t.turn < quantum * (s.qp t.lead).share then (t.lead, t.turn)
  else match (cycleFrom l (t.lead + 1)).find? (s.hasWork g) with
    | some q => (q, 0)
    | none => (t.lead, 0)

/-- A step as it will start: the state with its admissions, its tuning pass and its groups. -/
structure Draft where
  state : State
  tune : Option (Nat × List (List Nat))
  groups : List Group

/-- Places requests in order. -/
def State.placeAll (s : State) (cap : Nat) (rs : List Request) (l : Building) : State × Building :=
  rs.foldl (fun x r => x.1.placeRequest cap r x.2) (s, l)

/-- Requests that a step of a stage with IN routes carries: those that name the tag of its arrival lines, when
every route has one and their prompts total its row count (R375, R431). -/
def State.arrived (s : State) (g : Nat) : List Request :=
  match (s.stage g).ins with
  | [] => []
  | i :: _ =>
    match i.arrivals.head? with
    | some (tag, rows) =>
      let rs := s.requests.filter fun r => r.stage = g && r.placed = 0 && r.stepTag = tag
      if (s.stage g).ins.all (fun x => x.arrivals.head? = some (tag, rows)) && (rs.map fun r => r.prompt.length).foldl (· + ·) 0 = rows then rs else []
    | none => []

/-- Fills the next step of a stage (R399). A stage with IN routes carries the rows of one arrival alone
(DEDUCED, log 28). -/
def State.fill (s : State) (g cap : Nat) : Draft :=
  let lead := (s.leadOf g).1
  if !(s.stage g).ins.isEmpty then
    let rs := s.arrived g
    let order := (sortNats (rs.map (·.cmd.2))).filterMap fun i => rs.find? fun r => r.cmd.2 = i
    let x := s.placeAll cap order []
    let n : Nat := (x.2.map fun y => y.2.rows.length).foldl (· + ·) 0
    if n = (rs.map fun r => r.prompt.length).foldl (· + ·) 0 then ⟨x.1, none, x.2.map (·.2)⟩ else ⟨s, none, []⟩
  else
    let mine (q : Nat) (old : Bool) (s : State) : List Request := s.requests.filter fun r => r.stage = g && r.cmd.1 = q && r.kvFirst.isSome = old
    let a := s.placeAll cap (mine lead true s) []
    let t := (s.tuneChoice g lead).bind fun c =>
      (s.job c.1).bind fun j =>
        let gs := s.tuneGroups c.1 j c.2
        if a.2.length + gs.length ≤ cap then some (c, gs) else none
    let n := ((t.map (·.2)).getD []).length
    let b := a.1.placeAll (cap - n) (mine lead false a.1) a.2
    let others := (cycleFrom (s.stageSessions g) (lead + 1)).filter (· ≠ lead)
    let c := others.foldl (fun x q =>
      let y := x.1.placeAll (cap - n) (mine q true x.1) x.2
      y.1.placeAll (cap - n) (mine q false x.1) y.2) b
    ⟨c.1, t.map (·.1), (t.map (·.2)).getD [] ++ c.2.map (·.2)⟩

/-! ### What the Puppeteer writes for a step (R274, R275, R300, R428) -/

def tableBytes : Nat := 0x7_0000

/-- Where a step's tables go: the lowest place in TABLES clear of the pass record and the shadow region.
DESIGN CHOICE, log 27. -/
def StageCfg.tablePlace (c : StageCfg) : Option Nat :=
  let starts := (sortPairs (c.runs.filterMap fun r => if r.space = 0 && r.kind = 9 then some (r.first, r.count) else none)).flatMap fun r =>
    (List.range r.2).map fun j => granuleAddr 0 (r.1 + j)
  let clear (a : Nat) : Bool := within c.runs 0 9 a tableBytes && (a + tableBytes ≤ c.passRec || c.passRec + 64 ≤ a) &&
    (a + tableBytes ≤ c.shadow || c.shadow + c.shadowLen ≤ a)
  (sortNats (starts ++ [alignUp 64 (c.passRec + 64), alignUp 64 (c.shadow + c.shadowLen)])).find? clear

/-- A group-table entry. -/
def Group.entryBytes (g : Group) : Bytes :=
  let tune := match g.job with
    | some n => 512 + 1024 * n
    | none => 0
  toBytes 4 g.handle ++ toBytes 4 (g.rows.length + tune) ++ toBytes 8 g.image ++ toBytes 4 g.gen ++ zeros 4 ++ toBytes 8 g.gbuf ++ zeros 32

/-- A head descriptor: the head of the leased image, or the stage's zero head at `z`. -/
def State.headDesc (s : State) (g : Group) (z h k n : Nat) : Bytes :=
  let desc (base sbase dist dense : Nat) : Bytes :=
    toBytes 64 (2 + tyN4 * 2 ^ 4 + 2 ^ 8 + 2 * 2 ^ 13 + dense * 2 ^ 16 + base * 2 ^ 64 + sbase * 2 ^ 104 + dist * 2 ^ 192 + n * 2 ^ 224 + k * 2 ^ 248)
  let img := s.readBytes g.image (0x40 + 64 * (h + 1))
  if g.handle ≠ noHandle && h < imgHeads img then
    let e := imgHead img h
    desc (g.image + e.elem) (g.image + e.scale) (e.sum - e.scale) 3
  else desc z (z + 0x80) 0x40 0

/-- A row input record. -/
def State.rowBytes (s : State) (g : Group) (r : Row) : Bytes :=
  let q := if g.job.isSome then none else s.request r.owner
  let kv := match q with
    | some q => (q.kvFirst.getD 0, q.kvPages)
    | none => (0, 0)
  toBytes 16 (r.token + r.pos * 2 ^ 32 + kv.1 * 2 ^ 64 + kv.2 * 2 ^ 96 + b2n r.emit * 2 ^ 113)

/-- The group table, head descriptors, row input array and zero head of a step. -/
def State.writeTables (s : State) (c : StageCfg) (t : Nat) (groups : List Group) : State :=
  let z := t + 0x6_8000
  let s := s.zeroRange t tableBytes
  let s := s.writeBytes (z + 0x80) (toBytes 4 (mkHdr 0 0 (brickTag z) false false true))
  groups.zipIdx.foldl (fun s x =>
    let s := s.writeBytes (t + 64 * x.2) x.1.entryBytes
    let s := c.heads.foldl (fun s h => s.writeBytes (t + 0x8000 + 64 * (512 * h.1 + x.2)) (s.headDesc x.1 z h.1 h.2.1 h.2.2)) s
    x.1.rows.zipIdx.foldl (fun s r => s.writeBytes (t + 0x4_8000 + 16 * (16 * x.2 + r.2)) (s.rowBytes x.1 r.1)) s) s

/-- The pass record. -/
def State.writePass (s : State) (g : Nat) (c : StageCfg) (tune : Option (Nat × Nat)) : State :=
  let scale := match tune with
    | some (sigma, _) => (127 + sigma) * 2 ^ 23
    | none => 0x3F800000
  let trows := match tune with
    | some (_, n) => 2 ^ 14 + 16 * n
    | none => 0
  (s.zeroRange c.passRec 64).writeBytes c.passRec (toBytes 4 scale ++ toBytes 4 trows ++ toBytes 8 (s.lossBase g) ++ zeros 48)

/-! ### Starting a step (R221, R278) -/

/-- A stage may start a step: READY, none running, no scrub pass running or due (R486), no tuning pass that is still to be
settled, a model loaded, room for the tables. A stage without a model runs no step. DESIGN CHOICE, log 27. -/
def State.canStart (s : State) (g : Nat) : Bool :=
  let t := s.stage g
  t.st = 2 && t.step.isNone && t.scrub.isNone && t.model.isSome && (t.cfg.bind StageCfg.tablePlace).isSome &&
    (s.host.held.all fun h => !(h.opcode = 0x50 && fieldAt h.params 0 1 = g)) &&
    s.jobs.all fun x => !(x.2.stage = g && x.2.running && !x.2.broken)

/-- Takes the leases of a step. -/
def State.leased (s : State) (g : Nat) (x : Group) : Group :=
  if x.handle = noHandle then x
  else match s.resident g (handleIdx x.handle) with
    | some r => { x with image := r.addr, gen := r.gen }
    | none => x

/-- The sequencers of a stage start on its step. -/
def State.startAll (s : State) (g : Nat) (c : StageCfg) (tune : Bool) : State :=
  (s.stageClusters g).foldl (fun s cl => s.started cl (if tune then c.entryTune else c.entryServe)) s

/-- A replay of a tuning pass makes its blocks final anew, but for those already in the ring (R343, R356). -/
def State.unfinal (s : State) (i : Nat) : State :=
  (s.mapJob i fun j => { j with landed := [] }).mapRing i fun r => { r with final := r.final.filter fun k => r.sent.contains k || (Table.find r.done k).isSome }

/-- A tuning pass that is run again starts from its job's buffer as it was, and its blocks are final anew (R319). -/
def State.rewind (s : State) (i : Nat) (j : Job) (c : StageCfg) : State := (s.shadowBack i j c).unfinal i

/-- The groups of a step whose gradients the module counts: TUNE is 1, VALID_ROWS above 0, and it has a costume (R343). -/
def dueGroups (l : List Group) : List Nat :=
  (l.zipIdx.filter fun x => x.1.job.isSome && !x.1.rows.isEmpty && x.1.handle ≠ noHandle).map (·.2)

/-- Starts a step with these groups. -/
def State.launchStep (s : State) (g : Nat) (groups : List Group) (tune : Option (Nat × List (List Nat))) (attempt : Nat) : State :=
  match (s.stage g).cfg with
  | none => s
  | some c =>
    let groups := groups.map (s.leased g)
    let t := (c.tablePlace).getD 0
    let job := tune.bind fun x => (s.job x.1).map fun j => (x.1, j)
    let s := s.writeTables c t groups
    let s := s.writePass g c (job.map fun x => (s.bufSigma x.2, groups.countP (·.job.isSome)))
    let step : Step :=
      { groups := groups, table := t, passIdx := (job.map (·.2.passIdx)).getD 0, tuneN := (job.map (·.2.n)).getD 0
        seed := (job.map (·.2.seed)).getD 0, pass := job.map (·.1), attempt := attempt, aborted := false, cause := 0, parity := false, errors := [] }
    let s := s.setStage g { s.stage g with step := some step }
    let s := match job with
      | some (i, j) =>
        let all := s.passesOf i j
        let s := s.shadowCopy i j c
        let s := s.setJob i { j with running := true, passes := all, due := dueGroups groups, landed := [] }
        if all.length = 1 && j.thin ≤ j.wsteps + 1 && j.late.isEmpty && j.closing.isNone then (s.openExchange i true).settleRing i else s
      | none => s
    s.startAll g c job.isSome

/-- Largest number of groups of a step. -/
def StageCfg.cap (c : StageCfg) : Nat := if c.fixedCadence then c.cadRows / 16 else 512
def State.capOf (s : State) (g : Nat) : Nat := ((s.stage g).cfg.map StageCfg.cap).getD 0
def State.fixed (s : State) (g : Nat) : Bool := ((s.stage g).cfg.map (·.fixedCadence)).getD false

/-- The sessions whose turn comes as the lead moves on to `q`, in their order. -/
def State.turnsOf (s : State) (g q : Nat) : List Nat :=
  (cycleFrom (s.stageSessions g) ((s.stage g).lead + 1)).takeWhile (· ≠ q) ++ [q]

/-- The costumes without pages that requests of these sessions wait for, in the order of the sessions. -/
def State.waitingCostumes (s : State) (g : Nat) (l : List Nat) : List Nat :=
  (l.flatMap fun q => s.requests.filterMap fun r =>
    if r.stage = g && r.cmd.1 = q && r.handle ≠ noHandle && (s.resident g (handleIdx r.handle)).isNone then some (handleIdx r.handle)
    else none).eraseDups

/-- As the turn of sessions comes, the pages that the step's leases release are reserved for the costumes that wait there,
behind those that have waited for longer (R283; their order is a DESIGN CHOICE, log 20). -/
def State.reservePages (s : State) (g : Nat) (lead : Nat × Nat) : State :=
  if lead.2 ≠ 0 then s
  else
    let old := s.reserved g
    let new := (s.waitingCostumes g (s.turnsOf g lead.1)).filter fun i => !old.contains i
    { s with costumes := { s.costumes with reserve := Table.set [] s.costumes.reserve g (old ++ new) } }

/-- The loads for which a stage's pages are reserved, in their order, once leases have been released (R283). -/
def State.loadReserved (s : State) (g : Nat) : State :=
  if (s.stage g).st = 2 then (s.reserved g).foldl (fun s i => s.costumeLoad g i) s else s

/-- Takes up a drafted step: lead, turn, arrival lines. -/
def State.takeDraft (s : State) (g : Nat) (d : Draft) (pad : Nat) : State :=
  let lead := s.leadOf g
  let t := d.state.stage g
  let used (i : InRoute) : InRoute := if d.groups.isEmpty then i else { i with arrivals := i.arrivals.drop 1 }
  let r := d.state.reservePages g lead
  let s := r.setStage g { t with lead := lead.1, turn := lead.2, turnOver := !s.hasWork g lead.1, ins := t.ins.map used }
  s.launchStep g (d.groups ++ List.replicate (pad - d.groups.length) (emptyGroup noHandle)) d.tune 1

/-- STEP_START (R278): the next step of a stage in shared cadence, where it carries no tuning pass. -/
def execStepStart (stage : Nat) (s : State) : Res :=
  let d := s.fill stage (s.capOf stage)
  guarded (s.canStart stage && !s.fixed stage && d.tune.isNone && !d.groups.isEmpty) s (s.takeDraft stage d 0)

/-- TUNING_PASS_START (R296): the next step of a stage in shared cadence, where it carries this job's pass. -/
def execTuningPassStart (job : Nat) (s : State) : Res :=
  match s.job job with
  | none => .next s
  | some j =>
    let d := s.fill j.stage (s.capOf j.stage)
    guarded (s.canStart j.stage && !s.fixed j.stage && d.tune.map (·.1) = some job) s (s.takeDraft j.stage d 0)

/-- CADENCE_PERIOD_BOUNDARY (R466): the completions of the last step are posted and the next step starts, padded to
CAD_ROWS; nothing happens while a step overruns. A stage with IN routes starts none without its arrival lines (R375). -/
def State.boundaryOf (s : State) (g : Nat) : State :=
  let t := s.stage g
  let s := s.flushPosts g
  let d := s.fill g (s.capOf g)
  if s.canStart g && (t.ins.isEmpty || !d.groups.isEmpty) then s.takeDraft g d (s.capOf g) else s
def execCadencePeriodBoundary (stage : Nat) (s : State) : Res :=
  guarded (s.fixed stage && (s.stage stage).step.isNone) s (s.boundaryOf stage)

/-! ### Completing a step (R223, R428, R429, R301) -/

/-- The row of a step that emits a token of a request, and the rows it has. -/
def Step.rowsOf (t : Step) (id : Nat) : Nat × Option Nat :=
  let rows := t.groups.zipIdx.flatMap fun g => if g.1.job.isSome then [] else (g.1.rows.zipIdx.filter fun r => r.1.owner = id).map fun r => (r.1, 16 * g.2 + r.2)
  (rows.length, (rows.find? fun r => r.1.emit).map (·.2))

/-- A request after a step: its token, its completions, its end. -/
def State.finishRequest (s : State) (g : Nat) (t : Step) (r : Request) : State :=
  let x := t.rowsOf r.id
  let base := granuleAddr 0 ((s.granules g 0 6).headD 0)
  let out := match x.2 with
    | some row => some (s.readLE (base + 8 * row) 8)
    | none => none
  let r := { r with placed := r.placed + x.1, emitted := r.emitted ++ (out.map (· % 2 ^ 32)).toList }
  let s := s.setRequest r
  let s := if out.isSome then s.writeToken r (r.emitted.length - 1) else s
  let ends := match out with
    | some o => bit o 32 || r.maxNew ≤ r.emitted.length
    | none => r.maxNew = 0 && !r.prefilling
  let more (s : State) : State := if out.isSome then s.deliver g r.cmd ⟨0, r.emitted.length, 0, true, false, false⟩ else s
  if ends then s.endRequest r 0 false true
  else if r.cancel then s.endRequest r 0 true true
  else if r.handle ≠ noHandle && (s.entry (handleIdx r.handle)).st = 3 then (more s).endRequest r 0x0301 false true
  else more s

/-- Losses of the target rows of a tuning pass, in feed order. -/
def State.takeLosses (s : State) (g : Nat) (t : Step) : State :=
  match t.pass with
  | none => s
  | some i =>
    let rows := t.groups.zipIdx.flatMap fun x => if x.1.job.isNone then [] else (x.1.rows.zipIdx.filter fun r => r.1.target).map fun r => 16 * x.2 + r.2
    s.mapJob i fun j => { j with losses := j.losses ++ rows.map fun r => BitVec.ofNat 32 (s.readLE (s.lossBase g + 4 * r) 4) }

/-- A session's tuning job, whose pass the step carried, goes on at once: with the next pass of its feed, or with its next feed in
the same window. -/
def State.tuneGoesOn (s : State) (g q : Nat) : Bool :=
  s.jobs.any fun x =>
    let j := x.2
    j.stage = g && j.running && !j.broken && match j.feeds with
      | f :: rest => f.cmd.1 = q && (1 < j.passes.length ||
          (rest.headD f).cmd.1 = q && !rest.isEmpty && !j.paused && j.closing.isNone && (j.wsteps + 1 < j.thin || !j.late.isEmpty))
      | [] => false

/-- The step of a stage is over: its leases go, its lead's turn may end (R398), and a quiesce that waits for it ends. -/
def State.closeStep (s : State) (g : Nat) (t : Step) : State :=
  let s := s.setStage g { s.stage g with step := none, turn := (s.stage g).turn + 1 }
  let s := (s.releaseLeases g t).loadReserved g
  ((s.setStage g { s.stage g with turnOver := (s.stage g).turnOver || !(s.hasWork g (s.stage g).lead || s.tuneGoesOn g (s.stage g).lead) }).settleRings).settleQuiesce g

/-- STEP_COMPLETE (R223): every sequencer of the stage is HALTED. -/
def execStepComplete (stage : Nat) (s : State) : Res :=
  match (s.stage stage).step with
  | none => .next s
  | some t =>
    guarded (!t.aborted && (s.stageClusters stage).all fun cl => (s.cluster cl).st == .halted) s
      (let s := (s.stepRequests t).foldl (fun s r => s.finishRequest stage t r) s
       ((s.takeLosses stage t).settleErrors stage t true).closeStep stage t)

/-! ### Abort, replay, report (R251, R277, R384, R477) -/

/-- The request among some whose KV pages hold a poisoned line of a stage. -/
def State.poisonedKv (s : State) (g a : Nat) (l : List Request) : Option Request :=
  l.find? fun r => r.stage = g && match r.kvFirst with
    | some f => (List.range r.kvPages).any fun k => let p := nth 0 (s.kvSpace g) (f + k); p ≤ a && a < p + page
    | none => false

/-- The poisoned lines recorded against a step: those in the granules of its stage's plan, but for KV pages of no request of
the step, and in the SRAM of the stage's compute dies (R477). -/
def State.stagePoison (s : State) (g : Nat) (t : Step) : List Nat :=
  s.poison.filter fun a =>
    if a < 0x6_0000_0000 then
      let k := s.granuleKind g 0 (a / 0x400_0000)
      k ≠ 0 && (k ≠ 3 || (s.poisonedKv g a (s.stepRequests t)).isSome)
    else 0x10_0000_0000 ≤ a && a < 0x20_0000_0000 && (s.stageDies g).contains ((a - 0x10_0000_0000) / 0x4000_0000)

/-- A tuning pass of a step that is not replayed: after a parity cause the job waits for its rollback (R318); after
another, its feed ends with the status, its buffer is as before the pass, and the job goes on (R477). -/
def State.reportPass (s : State) (g : Nat) (t : Step) (status : Nat) (parity : Bool) : State :=
  match t.pass, (s.stage g).cfg with
  | some i, some c =>
    match s.job i with
    | none => s
    | some j =>
      if parity then s.setJob i { j with broken := true }
      else
        let s := ((s.rewind i j c).mapJob i fun j => { j with running := false }).endFeed i status true
        let s := s.mapJob i fun j => { j with n := j.n + 1 }
        let s := match s.job i with
          | some j => s.rescaleBuf i j
          | none => s
        match j.closing with
        | some (st, _) => s.closeJob i st
        | none => s
  | _, _ => s

/-- A step that is not replayed: every request with rows in it ends with the status. -/
def State.reportStep (s : State) (g : Nat) (t : Step) (status : Nat) (parity : Bool) : State :=
  let s := (s.stepRequests t).foldl (fun s r => s.endRequest r status false true) s
  ((s.reportPass g t status parity).settleErrors g t false).closeStep g t

/-- A third failed attempt whose poisoned lines all lie in KV pages of requests: those requests end, and the step is
built again without them and runs once more (R477 item 3); otherwise the step is reported. -/
def State.lastAttempt (s : State) (g : Nat) (t : Step) : State :=
  let hit := (s.stagePoison g t).map fun a => s.poisonedKv g a (s.stepRequests t)
  if t.attempt = 3 && !hit.isEmpty && hit.all Option.isSome then
    let gone := hit.filterMap fun r => r.map (·.id)
    let s := s.requests.foldl (fun s r => if gone.contains r.id then s.endRequest r 0x0702 false true else s) s
    let keep := t.groups.map fun x => if x.job.isSome then x else { x with rows := x.rows.filter fun r => !gone.contains r.owner }
    let keep := if s.fixed g then keep else keep.filter fun x => !x.rows.isEmpty
    let t' : Step := { t with groups := keep, attempt := 4, aborted := false, cause := 0, parity := false, errors := [] }
    match (s.stage g).cfg with
    | none => s
    | some c =>
      let s := s.settleErrors g t false
      if keep.isEmpty then s.closeStep g t
      else
        let s := s.writeTables c t.table keep
        let s := match t.pass with
          | some i => match s.job i with
            | some j => s.rewind i j c
            | none => s
          | none => s
        (s.setStage g { s.stage g with step := some t' }).startAll g c t.pass.isSome
  else s.reportStep g t 0x0702 true

/-- The step's fault allows another attempt. -/
def Step.replayable (t : Step) : Bool := t.parity && t.attempt < 3

/-- ABORT (R251): after a step fault the module aborts the step on every sequencer; a step that is not to be replayed
is reported. In a stage that quiesces no replay follows (R492). -/
def execAbort (stage : Nat) (s : State) : Res :=
  match (s.stage stage).step with
  | none => .next s
  | some t =>
    guarded (!t.aborted && t.cause ≠ 0) s
      (let s := s.abortStep stage
       if (s.stage stage).st = 3 && t.parity then (s.settleErrors stage t false).closeStep stage t
       else if t.replayable then s else if t.parity then s.lastAttempt stage t else s.reportStep stage t t.cause false)

/-- STEP_REPLAY (R477): the same tables, leases and arguments; a tuning buffer is restored from the shadow region. A
replay that needs a poisoned line of the shadow region is not made (R474, R318). -/
def State.replay (s : State) (g : Nat) (t : Step) : State :=
  match (s.stage g).cfg with
  | none => s
  | some c =>
    let job := t.pass.bind fun i => (s.job i).map fun j => (i, j)
    let lost := match job with
      | some (i, _) => s.poisoned c.shadow (64 + s.bufLen i)
      | none => false
    if lost then s.reportStep g t 0x0702 true
    else
      let s := match job with
        | some (i, j) => s.rewind i j c
        | none => s
      let t' : Step := { t with attempt := t.attempt + 1, aborted := false, cause := 0, parity := false }
      (s.setStage g { s.stage g with step := some t' }).startAll g c t.pass.isSome

/-- An aborted step that waits for the reload of a costume image (R475). -/
def Step.reloads (t : Step) : Bool := t.aborted && t.cause = 0

/-- Every costume of a step is resident again. -/
def State.leasable (s : State) (g : Nat) (t : Step) : Bool :=
  t.groups.all fun x => x.handle = noHandle || (match s.resident g (handleIdx x.handle) with
    | some r => r.st = .resident
    | none => false)

/-- A step is run anew with fresh leases (R475). -/
def State.rerun (s : State) (g : Nat) (t : Step) : State :=
  match (s.stage g).cfg with
  | none => s
  | some c =>
    let groups := t.groups.map (s.leased g)
    let s := s.writeTables c t.table groups
    let s := match t.pass.bind fun i => (s.job i).map fun j => (i, j) with
      | some (i, j) => s.rewind i j c
      | none => s
    (s.setStage g { s.stage g with step := some { t with groups := groups, aborted := false } }).startAll g c t.pass.isSome

def execStepReplay (stage : Nat) (s : State) : Res :=
  match (s.stage stage).step with
  | none => .next s
  | some t =>
    if t.reloads then guarded (s.leasable stage t) s (s.rerun stage t)
    else guarded (t.aborted && t.replayable) s (s.replay stage t)

/-- QUIESCE_TIMEOUT (R384 step 2): the running step of a quiescing stage is aborted and the quiesce goes on. -/
def execQuiesceTimeout (stage : Nat) (s : State) : Res :=
  match (s.stage stage).step with
  | none => .next s
  | some t => guarded ((s.stage stage).st = 3) s (((s.abortStep stage).settleErrors stage t false).closeStep stage t)

/-! ### Scrub passes' counts (R487) -/

def ScrubJob.mark (j : ScrubJob) (die : Nat) : ScrubJob := { j with dies := die :: j.dies.filter (· ≠ die) }
def State.mapScrub (s : State) (g : Nat) (f : ScrubJob → ScrubJob) : State :=
  match (s.stage g).scrub with
  | some j => s.setStage g { s.stage g with scrub := some (f j) }
  | none => s
/-- A counter of the summary, saturating (R482). -/
def bump (n : Nat) : Nat := (satAdd 32 n 1).1

/-! ### The end of a costume load (R271, R272, R279) -/

/-- The refetch that a load carried out ends as the load does (R474, R475). -/
def State.lineSettled (s : State) (r : Resident) (ok : Bool) : State :=
  match r.line with
  | none => s
  | some a =>
    let die := s.dev.part.dieOfAddr a
    let src := if stagingBase ≤ a then 5 else 1
    if ok then
      let s := (s.logError die src a 3 2 0x0701 false (s.failsAgain die src a)).addCorrectable die
      if src = 5 then s else s.mapScrub r.stage fun j => { j.mark die with refetched := bump j.refetched }
    else (s.logError die src a 3 2 0x0702 true (s.failsAgain die src a)).addUnrecovered die

/-- A step that waits for an image that does not come goes on without its rows; a tuning pass of that costume ends, and with it the
step's keys of noise (R222). In fixed cadence padding takes the place of the rows (R466). -/
def State.withoutCostume (s : State) (r : Resident) (status : Nat) : State :=
  let g := r.stage
  match (s.stage g).step with
  | none => s
  | some t =>
    let mine (x : Group) : Bool := x.handle ≠ noHandle && handleIdx x.handle = r.index
    if !t.reloads || !t.groups.any mine then s
    else
      let pass := t.pass = some r.index
      let s := s.requests.foldl (fun s q => if q.stage = g && q.handle ≠ noHandle && handleIdx q.handle = r.index then s.endRequest q status false true else s) s
      let s := if pass then s.reportPass g t status false else s
      let keep := t.groups.filter fun x => !mine x
      let keep := if s.fixed g then keep ++ List.replicate (s.capOf g - keep.length) (emptyGroup noHandle) else keep
      let s := match (s.stage g).cfg with
        | some c => if pass then s.writePass g c none else s
        | none => s
      if keep.isEmpty then (s.settleErrors g t false).closeStep g t
      else s.setStage g { s.stage g with step := some (if pass then { t with groups := keep, pass := none, passIdx := 0, tuneN := 0, seed := 0 } else { t with groups := keep }) }

/-- A checkpoint that waited for a costume's image is taken once the image is there, and ends with the status of a load that
fails (R315; DESIGN CHOICE, log 53). -/
def State.dueSettled (s : State) (g i status : Nat) : State :=
  match s.job i with
  | none => s
  | some j =>
    if !j.ckDue || j.stage ≠ g then s
    else if status = 0 then s.takePending i
    else
      let s := s.setJob i { j with ckReq := none, ckDue := false }
      match j.ckReq with
      | some q => s.finish q.cmd status
      | none => s

/-- The outcome of a load: 0 where it goes on or succeeds. One that fails ends every request of the stage that waits
for the costume. -/
def State.loadResult (r : Resident) (x : State × Nat) (r1 : Nat := 0) : State :=
  let ends := x.2 ≠ 0 || (match x.1.resident r.stage r.index with
    | some q => q.st = .resident
    | none => false)
  let s := if ends then (x.1.lineSettled r (x.2 = 0)).dueSettled r.stage r.index x.2 else x.1
  if x.2 = 0 then s
  else
    let s := s.withoutCostume r x.2
    s.requests.foldl (fun s q =>
      if q.stage = r.stage && q.handle ≠ noHandle && handleIdx q.handle = r.index && !s.inStep q then s.endRequest q x.2 false false r1 else s) s

/-- A load ends, or its package is still to be read. -/
def State.loadEnds (s : State) (r : Resident) : State :=
  let e := s.entry r.index
  match s.cached r.index with
  | none => (s.setResident { r with fetching := true, stored := true }).nvmeIssue false e.nvme e.nsid e.slba (e.imageLen + 112) [] (.load r.stage r.index)
  | some c => State.loadResult r (s.finishLoad r c.bytes)
def execCostumeLoadComplete (stage handle : Nat) (s : State) : Res :=
  let i := handleIdx handle
  match s.resident stage i with
  | some r => guarded (r.loading && r.running && !r.fetching) s (s.loadEnds r)
  | none => .next s

end Sys2Proof.Machine
end

