-- ==== Sys2Proof/Machine/Parity.lean ====
section
/-! DEFINITION. Parity.lean: refetch and instruction replay, scrubbing, fencing, and TELEMETRY_READ
(ch. Parity R469-R492; ch. Host interface R432). -/

namespace Sys2Proof.Machine

/-! ### Where a line lies (R474, R484) -/

/-- What a line of a stage is, as far as its recovery goes. -/
inductive LineAt where
  | weights
  | wardrobe
  | tables
  | slot (cl : ClusterId) (array : Nat) (slot : Nat)
  | imem
  | mutable
  deriving DecidableEq, Repr

/-- A line that lies in a stage's memory-die granules or in the SRAM of its compute dies. -/
def State.lineAt (s : State) (g a : Nat) : Option LineAt :=
  if a % 64 ≠ 0 then none
  else if a < 0x6_0000_0000 then
    match s.granuleKind g 0 (a / 0x400_0000), (s.stage g).cfg with
    | 0, _ => none
    | 1, _ => some .weights
    | 2, _ => some .wardrobe
    | 9, some c => some (if c.shadow ≤ a && a < c.shadow + c.shadowLen then .mutable else .tables)
    | _, _ => some .mutable
  else if 0x10_0000_0000 ≤ a && a < 0x20_0000_0000 && (s.stageDies g).contains ((a - 0x10_0000_0000) / 0x4000_0000) then
    let die := (a - 0x10_0000_0000) / 0x4000_0000
    let o := (a - 0x10_0000_0000) % 0x4000_0000
    let w := o % 0x80_0000
    if o < 0x800_0000 then
      if w < 0x70_0000 || (0x70_0000 ≤ w && w < 0x70_0600) then some .mutable
      else if 0x78_0000 ≤ w && w < 0x79_0000 then some .imem else none
    else if o < 0x800_0000 + 48 * 0x40_0000 then
      let k := (o - 0x800_0000) / 0x40_0000
      some (.slot (16 * die + k / 3) (k % 3) ((o - 0x800_0000) % 0x40_0000 / 0x1_0000))
    else if 0x1800_0000 ≤ o && o < 0x1900_0000 then some .mutable else none
  else none

/-- The rigged stage whose memory or SRAM holds a line. -/
def State.stageOfLine (s : State) (a : Nat) : Option Nat := (List.range 16).find? fun g => 2 ≤ (s.stage g).st && (s.lineAt g a).isSome

/-! ### Poison and refetch (R472-R475) -/

/-- Adds 1 to POISONED of a die (R481, R482). -/
def State.countPoisoned (s : State) (die : Nat) : State :=
  let d := s.die die
  let r := satAdd 32 d.poisoned 1
  let s := s.setDie die { d with poisoned := r.1, ovf := d.ovf.set 4 (nth false d.ovf 4 || r.2) }
  if r.2 && !nth false d.ovf 4 then s.event 1 else s

/-- A line that no scope recovers is poisoned, logged and counted. `level` and `scope` are the highest tried. -/
def State.poisonLine (s : State) (g a source level scope : Nat) : State :=
  let die := s.dev.part.dieOfAddr a
  let s := ((s.logError die source a level scope 0x0702 true (s.failsAgain die source a)).addUnrecovered die).countPoisoned die
  ({ s with poison := a :: s.poison.filter (· ≠ a) }).mapScrub g fun j => { j.mark die with poisoned := bump j.poisoned }

/-- A line that its refetch rewrites. -/
def State.refetched (s : State) (g a : Nat) : State :=
  let die := s.dev.part.dieOfAddr a
  ((s.logError die 1 a 3 2 0x0701 false (s.failsAgain die 1 a)).addCorrectable die).mapScrub g fun j => { j.mark die with refetched := bump j.refetched }

/-- The running step of a stage ends, and every request with rows in it, with PARITY_UNRECOVERED. -/
def State.loseStep (s : State) (g : Nat) : State :=
  match (s.stage g).step with
  | some t => (s.abortStep g).reportStep g t 0x0702 true
  | none => s

/-- Placement records with their places in the plaintext of their package. -/
def recordPlaces (o : Nat) : List Placement → List (Placement × Nat)
  | [] => []
  | x :: l => (x, o) :: recordPlaces (o + 64 + x.bytes.length) l

/-- A poisoned line lies in the stage's copy of the model package under the chunks that hold bytes of the plaintext: the
package lies in the MODEL_COPY granules in ascending order (DESIGN CHOICE, log 30). -/
def State.copyPoisoned (s : State) (g o n : Nat) : Bool :=
  let l := s.granules g 1 0xA
  (List.range ((o + n - 1) / chunkLen + 1 - o / chunkLen)).any fun k =>
    let c := 64 + (o / chunkLen + k) * (chunkLen + 16)
    s.poison.any fun p => stagingBase ≤ p && match l.findIdx? (· = granuleOf p) with
      | some i => let q := 0x400_0000 * i + (p - stagingBase) % 0x400_0000; q < c + chunkLen + 16 && c < q + 64
      | none => false

/-- A WEIGHTS line again, from the placement that covers it; none where the package has none or fails under the model's key in the
protected store (R442, R475). -/
def State.weightsLine (s : State) (g a : Nat) : Option State :=
  (s.stage g).model.bind fun m =>
    (modelPlain (s.modelKey (s.stageModel g)) m.package).bind fun p =>
      (placements (fieldAt p 0x20 4) (fieldAt p 0x20 4) (p.drop 64)).bind fun l =>
        ((recordPlaces 64 l).find? fun x => x.1.spans.any fun r => r.1 < a + 64 && a < r.1 + r.2).bind fun x =>
          if s.copyPoisoned g x.2 (64 + x.1.bytes.length) then none else some (s.writeBytes a ((s.place x.1).readBytes a 64))

/-- The image that holds a wardrobe line. -/
def State.imageAt (s : State) (g a : Nat) : Option Resident :=
  s.costumes.res.find? fun r => r.stage = g && r.st = .resident && r.covers a

/-- A costume's image is loaded again into free pages, and its old pages enter SCRUBBING (R475). Where no run of pages is
free, the load waits for one. DESIGN CHOICE, log 30. -/
def State.reloadImage (s : State) (r : Resident) (a : Nat) : State :=
  (s.mapScrub r.stage (·.mark (s.dev.part.dieOfAddr a))).reload r (r.bufs.map fun x => ⟨r.stage, r.index, x, r.pages⟩) (s.findRun r.stage r.pages) (some a)

/-- A step that leases an image stops, and waits to run anew (R475). -/
def State.awaitReload (s : State) (r : Resident) : State :=
  if s.leases r.stage r.index = 0 then s else s.abortStep r.stage

/-- A line of mutable data that fails is poisoned; a slot poisons its chain (R474). -/
def State.scrubPoison (s : State) (g a : Nat) : LineAt → State
  | .slot cl t k =>
    let c := s.cluster cl
    match ((c.arr t).chains.find? fun p => p.2.st = 1 && (p.2.slots p.1).contains k).map (·.1) with
    | some b => (s.poisonLine g a 1 2 1).poisonChain cl t b 0x0702
    | none => s.poisonLine g a 1 2 1
  | .imem =>
    let die := s.dev.part.dieOfAddr a
    let s := ((s.logError die 6 a 2 1 0x0702 true false).addUnrecovered die).mapScrub g fun j => j.mark die
    match (s.stage g).st with
    | 2 => s.startQuiesce g .fence none
    | 3 => s.setStage g { s.stage g with why := .fence }
    | _ => if (s.stage g).scrub.isSome then s.setStage g { s.stage g with why := .fence } else (s.unrig g (nextEpoch (s.stage g).epoch)).startRig
  | _ => s.poisonLine g a 1 2 1

/-- What follows on a persistent error (R474, R475): a refetch of frozen data, which takes one step here, so that no reader is
seen to wait (DESIGN CHOICE, log 30); other data is poisoned. -/
def State.refetchLine (s : State) (g a : Nat) (loc : LineAt) : State :=
  match loc with
  | .weights =>
    match s.weightsLine g a with
    | some t => t.refetched g a
    | none =>
      let s := (s.poisonLine g a 1 3 2).loseStep g
      s.setStage g { s.stage g with model := none }
  | .wardrobe =>
    match s.imageAt g a with
    | some r => (s.awaitReload r).reloadImage r a
    | none => s.refetched g a
  | .tables => s.refetched g a
  | loc => s.scrubPoison g a loc

/-- A line is marked as one that reads fail on. -/
def State.mark (s : State) (a : Nat) : State := { s with poison := a :: s.poison.filter (· ≠ a) }

/-- An error of a staging line that no scope recovers. -/
def State.stagingLost (s : State) (a : Nat) : State :=
  let die := s.dev.part.dieOfAddr a
  (s.logError die 5 a 2 1 0x0702 true (s.failsAgain die 5 a)).addUnrecovered die

/-- A cached package is loaded again from storage (R272): for the load that reads it, which fails where its package has come from
there already, or for the next one. -/
def State.recache (s : State) (c : Cached) (a : Nat) : State :=
  let e := s.entry c.index
  let s := s.uncache c.index
  match s.costumes.res.find? fun r => r.index = c.index && r.loading && r.running && !r.fetching with
  | some r =>
    if r.stored then State.loadResult r ((s.stagingLost a).failLoad r 0x0304, 0x0304)
    else (s.setResident { r with fetching := true, stored := true, line := some a }).nvmeIssue false e.nvme e.nsid e.slba (e.imageLen + 112) []
      (.load r.stage r.index)
  | none =>
    let die := s.dev.part.dieOfAddr a
    (s.logError die 5 a 3 2 0x0701 false (s.failsAgain die 5 a)).addCorrectable die

/-- A staging read that a device or a link die reports as uncorrectable (R471), by what the line holds (R474): a directory
entry, two audit records, a package in the cache, optimizer state, which its job's update was reading, or a package that a
refetch or a rollback will read. -/
def State.stagingLine (s : State) (a : Nat) : State :=
  let h := granuleOf a
  let kind := ((s.modRuns.find? fun r => r.first ≤ h && h < r.first + r.count).map (·.kind)).getD 0
  let owner := (List.range 16).find? fun g => s.granuleKind g 1 h ≠ 0
  if a < 0x80_4000_0000 then
    let i := (a - stagingBase) / 64
    (s.stagingLost a).setEntry i { s.entry i with poisoned := true }
  else if a < 0x80_5000_0000 then (s.stagingLost a).mark a
  else if kind = 0xC then
    match s.costumes.cache.find? fun c => c.addr < a + 64 && a < c.addr + c.bytes.length with
    | some c => s.recache c a
    | none => s.stagingLost a
  else
    match owner with
    | some g =>
      let s := s.poisonLine g a 5 2 1
      if s.granuleKind g 1 h ≠ 0xB then s
      else match s.jobs.find? fun x => x.2.stage = g && x.2.updating with
        | some x => s.mapJob x.1 fun j => { j with broken := true }
        | none => s
    | none => if kind = 0xD then s.poisonLine 16 a 5 2 1 else s.stagingLost a

/-- REFETCH: the re-reads of a line that a reader needs have failed. Frozen data is fetched again; a line of other data is poisoned,
and its reader finds it so (R474). -/
def execRefetch (addr : Nat) (s : State) : Res :=
  if stagingBase ≤ addr then
    guarded (addr % 64 = 0 && addr < stagingBase + s.dev.part.stGranules * 0x400_0000 && !s.poison.contains addr) s (s.stagingLine addr)
  else match s.stageOfLine addr with
  | none => .next s
  | some g =>
    match s.lineAt g addr with
    | some loc => guarded (!s.poison.contains addr) s (s.refetchLine g addr loc)
    | none => .next s

/-! ### Instruction replay (R473, R474, R476) -/

/-- The oldest unfinished instruction of a cluster in a unit's queue. -/
def State.working (s : State) (cl unit : Nat) : Option Issued :=
  (s.unitQueue cl unit).find? fun e => e.cluster = cl && e.taken.isNone && e.status = 0 && (e.rows.isEmpty || e.row < e.rows.length)

/-- An instruction that its replay does not recover completes with PARITY_UNRECOVERED, and the line of the unit's buffer is
poisoned; step replay takes the error over. -/
def State.replayFails (s : State) (cl unit : Nat) (e : Issued) : State :=
  let die := cl / 16
  let addr := 256 * (cl % 16) + unit
  let g := s.stageOfDie die
  let s := (s.setUnit cl unit ((s.unitQueue cl unit).map fun x => if x = e then { x with status := 0x0702, parity := true } else x)).countPoisoned die
  match (s.stage g).step with
  | some t => s.setStage g { s.stage g with step := some { t with errors := t.errors ++ [(die, 4, addr)] } }
  | none => (s.logError die 4 addr 4 3 0x0702 true false).addUnrecovered die

/-- A free part of a number; all of it where `whole`. -/
def State.part (s : State) (whole : Bool) (n : Nat) : Nat × State := if whole then (n, s) else s.drawUpTo n

/-- What a replayed instruction counts is counted again (R78, R478): all of a VEC instruction's work; of another's, a free
part, since how much of it was not committed is not given (DESIGN CHOICE, log 74). -/
def State.recount (s : State) (cl unit : Nat) (e : Issued) : State :=
  let whole := unit = 7
  let die := cl / 16
  let s := e.quant.foldl (fun s q =>
    let total := s.part whole q.2.2
    let clip := total.2.part whole (min q.2.1 total.1)
    { clip.2.addClip (if 8 ≤ unit then die else 64) q.1 clip.1 total.1 with aside := [] }) s
  let r := s.part whole (nth 0 e.counts 0)
  let n := r.2.part whole (nth 0 e.counts 1)
  let l := n.2.part whole (nth 0 e.counts 2)
  let s := (l.2.addReserved die r.1).addSlow die n.1 l.1
  (List.range 4).foldl (fun s k => let d := s.part whole (nth 0 e.counts (3 + k)); d.2.addDrops die k d.1) s

/-- A run of a die's update engine whose memory has an error is streamed again from staging memory, whole, or its shard is withheld
(R474, R476, R177). The log names the poisoned line of the engine's memory, or its first line (DESIGN CHOICE, log 40). -/
def State.replayRun (s : State) (die : Nat) (ok : Bool) (i : Nat) (j : Job) (h : Shard) : State :=
  let lo := ueMemory die
  let a := (s.poison.find? fun l => lo ≤ l && l < lo + 0x100_0000).getD lo
  let s := { s with poison := s.poison.filter fun l => !(lo ≤ l && l < lo + 0x100_0000) }
  if ok then (s.logError die 1 a 4 3 0x0701 false (s.failsAgain die 1 a)).addCorrectable die
  else ((s.logError die 1 a 4 3 0x0702 true (s.failsAgain die 1 a)).addUnrecovered die).shardUpdate i die j h true

/-- The job whose update runs on a die's engine, and its shard there. -/
def State.updatesOn (s : State) (die : Nat) : Option (Nat × Job × Shard) :=
  s.jobs.findSome? fun x =>
    if x.2.updating && x.2.left.contains die && s.altFree x.1 x.2 then (x.2.shards.find? fun h => h.die = die).map fun h => (x.1, x.2, h) else none

/-- INSTRUCTION_REPLAY: an error in the state of a unit; unit 10 stands for the update engine of the cluster's die (log 40);
its instruction is repeated from its first result that is not committed, which delivers the results it would have delivered
(R478), or fails twice. -/
def execInstructionReplay (cl unit : Nat) (ok : Bool) (s : State) : Res :=
  if unit = 10 then match s.updatesOn (cl / 16) with
    | some x => .next (s.replayRun (cl / 16) ok x.1 x.2.1 x.2.2)
    | none => .next s
  else match s.working cl unit with
  | none => .next s
  | some e =>
    guarded (1 ≤ unit && unit ≤ 9 && cl / 16 < s.dev.part.cds) s
      (if ok then ((s.logError (cl / 16) 4 (256 * (cl % 16) + unit) 4 3 0x0701 false false).addCorrectable (cl / 16)).recount cl unit e
       else s.replayFails cl unit e)

/-! ### Scrubbing (R484-R488) -/

/-- A scrub read (R484, R485). -/
def State.scrubRead (s : State) (g a : Nat) (loc : LineAt) : ScrubFound → State
  | .good => s
  | .poisoned => s
  | .transient =>
    let die := s.dev.part.dieOfAddr a
    let source := if loc = .imem then 6 else 1
    ((s.logError die source a 2 1 0x0701 false (s.failsAgain die source a)).addCorrectable die).mapScrub g fun j =>
      { j.mark die with reread := bump j.reread }
  | .persistent => s.refetchLine g a loc

/-- A slot that has an accumulation in flight is skipped (R485). -/
def State.slotBusy (s : State) : LineAt → Bool
  | .slot cl t k => ((s.cluster cl).arr t).busyOn [k]
  | _ => false

/-- The slots of a die that have an accumulation in flight, as ranges of addresses between two bounds. -/
def State.busyRanges (s : State) (die lo hi : Nat) : List (Nat × Nat) :=
  if 64 ≤ die then []
  else
    ((List.range 16).flatMap fun c => (List.range 3).flatMap fun t =>
      if ((s.cluster (16 * die + c)).arr t).queue.isEmpty then []
      else ((List.range 64).filter fun k => ((s.cluster (16 * die + c)).arr t).busyOn [k]).map fun k =>
        let a := accWindow (16 * die + c) t + 0x1_0000 * k
        (max lo a, min hi (a + 0x1_0000))).filter fun r => r.1 < r.2

/-- A scrubber may read a line: it has not passed it, or has skipped it. -/
def ScrubPos.may (p : ScrubPos) (a : Nat) : Bool := p.next ≤ a || p.skipped.any fun r => r.1 ≤ a && a < r.2

/-- The scrubber after it has read a line: it has read the lines before it, all good, but for the `busy` ranges it has skipped. -/
def ScrubPos.seen (p : ScrubPos) (a : Nat) (busy : List (Nat × Nat)) : ScrubPos :=
  if p.next ≤ a then { p with next := a + 64, skipped := p.skipped ++ busy }
  else { p with skipped := p.skipped.map fun r => if r.1 ≤ a && a < r.2 then (a + 64, r.2) else r }

/-- Where a die's scrubber stands. -/
def posOf (l : List ScrubPos) (die : Nat) : ScrubPos := (l.find? fun p => p.die = die).getD ⟨die, 0, []⟩
def State.seen (s : State) (l : List ScrubPos) (die a : Nat) : List ScrubPos :=
  let p := posOf l die
  p.seen a (s.busyRanges die p.next a) :: l.filter fun p => p.die ≠ die

/-- The positions of a stage's scrubbers: those of its scrub pass, or those of the period in progress; a period that is over begins
anew (R484). -/
def State.scrubbers (s : State) (g : Nat) : Nat × List ScrubPos :=
  let t := s.stage g
  match t.scrub with
  | some j => (t.scrubAt, j.pos)
  | none =>
    let period := ((t.cfg.map (·.scrubPeriod)).getD 1) * 1000000000
    if period = 0 || s.now < t.scrubAt + period then (t.scrubAt, t.scrubPos) else (s.now - (s.now - t.scrubAt) % period, [])

/-- A scrub read moves the scrubber of its die on. -/
def State.scrubMoved (s : State) (g a : Nat) : State :=
  let x := s.scrubbers g
  let l := s.seen x.2 (s.dev.part.dieOfAddr a) a
  match (s.stage g).scrub with
  | some j => s.setStage g { s.stage g with scrub := some { j with pos := l } }
  | none => s.setStage g { s.stage g with scrubAt := x.1, scrubPos := l }

/-- BACKGROUND_SCRUB_READ: a read by a scrubber of a stage in BACKGROUND mode, or by a scrub pass. Each line is read once in a
period or pass, in ascending address on each die; reads that find their line good need not be named (DEDUCED, log 31). A line
of instruction memory stands for both its copies. A poisoned line reads as poisoned, and no other does (R472). -/
def execBackgroundScrubRead (stage addr : Nat) (found : ScrubFound) (s : State) : Res :=
  let t := s.stage stage
  let on := ((t.cfg.map (·.background)).getD false) || t.scrub.isSome
  match s.lineAt stage addr with
  | none => .next s
  | some loc =>
    guarded (stage < 16 && 2 ≤ t.st && on && (decide (found = .poisoned) == s.poison.contains addr) && !s.slotBusy loc &&
        (posOf (s.scrubbers stage).2 (s.dev.part.dieOfAddr addr)).may addr) s
      ((s.scrubMoved stage addr).scrubRead stage addr loc found)

/-- Lines that a pass reads (R484): the stage's memory-die granules, and of each compute die its operand memory, accumulator
slots and update-engine memory, 5,242,880 lines, its chain tables, and both copies of its instruction memory. -/
def State.scrubLines (s : State) (g : Nat) : Nat :=
  (((s.planOf g).filter (·.space = 0)).map (·.count)).foldl (· + ·) 0 * 1048576 + (s.stageDies g).length * (5242880 + 16 * (24 + 2048))

/-- The summary of a scrub pass (R487). -/
def State.scrubSummary (s : State) (g : Nat) (j : ScrubJob) : Bytes :=
  let t := s.stage g
  toBytes 1 g ++ toBytes 1 (b2n ((t.cfg.map (·.background)).getD false)) ++ zeros 2 ++ toBytes 4 t.epoch ++ toBytes 8 j.start ++
    toBytes 8 s.now ++ toBytes 8 (s.scrubLines g) ++ toBytes 4 j.reread ++ toBytes 4 j.refetched ++ toBytes 4 j.poisoned ++
    toBytes 4 j.found ++ zeros 16 ++ toBytes 16 ((j.dies.map (2 ^ ·)).foldl (· + ·) 0) ++ zeros 48

/-- A scrub pass is over, and what waited for it goes on. -/
def State.scrubOver (s : State) (g : Nat) : State :=
  let s := s.setStage g { s.stage g with scrub := none }
  match (s.stage g).st with
  | 2 => s.quiesceDue g
  | 4 => if (s.stage g).why = .fence then (s.unrig g (nextEpoch (s.stage g).epoch)).startRig else s.startRig
  | _ => s

/-- The end of a scrub pass with its summary. -/
def State.scrubEnds (s : State) (k : Call) (g : Nat) (j : ScrubJob) : State :=
  ((s.result k false (s.scrubSummary g j)).finish k.ref 0).scrubOver g

/-- The scrub passes of a queue pair that closes end without a completion. -/
def State.endPasses (s : State) (qp : Nat) : State :=
  (List.range 16).foldl (fun s g => match (s.stage g).scrub with
    | some j => if j.cmd.1 = qp then s.scrubOver g else s
    | none => s) s
/-- SCRUB_PASS (R486, R358, R460): it waits for the running step, and for a pass of the same stage; the row presented
again while it runs is its end. DESIGN CHOICE, log 32. -/
def doScrubPass : Start := fun k s =>
  let g := k.arg 0 1
  let t := s.stage g
  let st := if t.st = 4 then (if s.rerigged k g then 0x0502 else 0) else s.stageFor k g
  match t.scrub with
  | some j => if j.cmd = k.ref then s.scrubEnds k g j else if st ≠ 0 then s.finish k.ref st else s.hold k false
  | none =>
    if st ≠ 0 then s.finish k.ref st
    else if t.step.isSome then s.hold k false
    else
      let found := s.poison.filter fun a => (s.lineAt g a).isSome
      (s.setStage g { t with scrub := some ⟨k.ref, s.now, 0, 0, 0, found.length, (found.map s.dev.part.dieOfAddr).eraseDups, []⟩ }).hold k false
def execScrubPass (c : HostCmd) (s : State) : Res := s.command c 0x50 doScrubPass

/-! ### Fencing (R489-R491) -/

/-- Times of a list, newest first, that all lie within a span. -/
def withinSpan (l : List Nat) (n span : Nat) : Bool := n ≤ l.length && nth 0 l 0 - nth 0 l (n - 1) ≤ span

/-- A condition of Table Fence conditions that leads to a proposal. -/
def State.proposable (s : State) (die cause : Nat) : Bool :=
  let d := s.die die
  match cause with
  | 1 => withinSpan d.corrTimes 4096 3600000000000
  | 2 => d.log.any fun e => 64 ≤ e.hits
  | 3 => d.log.any (·.stuck)
  | 4 => withinSpan d.unrecTimes 3 86400000000000
  | 6 => 88 ≤ die
  | _ => false

/-- FENCE_PROPOSAL (R489). A change of the error summary sets EVT.ERROR too. -/
def State.proposed (s : State) (die cause : Nat) : State :=
  let s := s.setDie die { s.die die with proposed := true, cause := cause }
  let s := if cause = 6 then { s with host := { s.host with unrecovered := true } } else s
  (s.event 3).event 1
def execFenceProposal (die cause : Nat) (s : State) : Res :=
  guarded (s.dev.part.hasDie die && !(s.die die).fenced && !((s.die die).proposed && (s.die die).cause = cause) && s.proposable die cause) s
    (s.proposed die cause)

/-- A stage's DIES or memory plan names a die. -/
def State.namesDie (s : State) (g die : Nat) : Bool :=
  if die < 64 then (s.stageDies g).contains die
  else (s.planOf g).any fun r => r.space = 0 && r.first < 16 * (die - 63) && 16 * (die - 64) < r.first + r.count

/-- The dies that an instruction of a unit's queue uses; one that has not begun, those of the descriptors it took. -/
def State.usesDies (s : State) (e : Issued) : List Nat :=
  match e.taken with
  | none => e.dies
  | some t =>
    let c := { s.cluster e.cluster with sregs := t.sregs, dslots := t.dslots }
    s.dev.part.diesOf (match t.work with
      | .vec _ _ f => [f.opa, f.opb, f.opc, f.opd, f.ope].map fun o => (c.vop o).d
      | .mov _ _ f => [(c.movOps f).s, (c.movOps f).d])

/-- The instructions of a stage that have issued and use a fenced die's memory complete with DIE_FENCED (R490 step 2;
DESIGN CHOICE, log 41). -/
def State.endFlights (s : State) (g die : Nat) : State :=
  let units := ((s.stageClusters g).flatMap fun cl => [1, 2, 3, 4, 5, 6, 7].map fun u => (cl, u)) ++
    (s.stageDies g).flatMap fun d => [(16 * d, 8), (16 * d, 9)]
  units.foldl (fun s u => s.setUnit u.1 u.2 ((s.unitQueue u.1 u.2).map fun e =>
    if e.status = 0 && (s.usesDies e).contains die then { e with status := 0x0703, taken := none } else e)) s

/-- What a fence does to a stage that names the die (R397). Requests of a step that is being replayed end with
DIE_FENCED (R492). -/
def State.fenceStage (s : State) (g : Nat) : State :=
  match (s.stage g).st with
  | 1 => s.failStage 0x0703 true
  | 2 => (s.abandonReplay g 0x0703).startQuiesce g .fence none
  | 3 => s.setStage g { s.stage g with why := .fence }
  | 4 => if (s.stage g).scrub.isSome then s.setStage g { s.stage g with why := .fence } else (s.unrig g (nextEpoch (s.stage g).epoch)).startRig
  | _ => s

/-- DIE_FENCE (R490): CAUSE 0x05 on a compute or memory die. -/
def State.fenceDie (s : State) (die : Nat) : State :=
  let s := s.setDie die { s.die die with fenced := true, cause := 5 }
  let s := (s.event 3).event 1
  (List.range 16).foldl (fun s g => if s.namesDie g die then (s.endFlights g die).fenceStage g else s) s
def execDieFence (die : Nat) (s : State) : Res :=
  guarded (s.diesRun && die < 88 && s.dev.part.hasDie die && !(s.die die).fenced) s (s.fenceDie die)

/-! ### TELEMETRY_READ (R432, R413, R355, R374) -/

/-- SERVICE_DEGRADED (R527). -/
def State.degraded (s : State) : Bool := s.thermal.t.any (0 < ·)

/-- The 64 bytes of the telemetry mirror. -/
def State.mirror (s : State) : Bytes :=
  let t := s.thermal
  toBytes 8 t.sampleTime ++ toBytes 4 t.inputMw ++ toBytes 4 t.inputMv ++
    padTo ((List.range 4).flatMap fun q => toBytes 8 (nth 0 t.mirrorTj q % 65536 + nth 0 t.mirrorT q * 2 ^ 16 + nth 0 t.powerW q * 2 ^ 24)) 48

/-- The 32 bytes of an IN route's status. -/
def InRoute.record (r : InRoute) : Bytes :=
  let ovf := r.ovf.zipIdx.foldl (fun n p => n + b2n p.1 * 2 ^ p.2) 0
  padTo (toBytes 4 r.written ++ toBytes 4 r.stale ++ toBytes 4 r.gone ++ toBytes 4 r.tagFails ++ toBytes 4 ovf) 32

/-- TELEMETRY_READ: ring status of a job outside any ring is NOT_FOUND (DESIGN CHOICE, log 29). -/
def doTelemetryRead : Start := fun k s =>
  match k.arg 0 1 with
  | 0 => (s.result k false s.mirror).finish k.ref 0
  | 1 =>
    let b := s.resolve k.principal (k.arg 4 4) none
    if b ≠ 0 then s.finish k.ref b
    else match (s.job (handleIdx (k.arg 4 4))).bind Job.member with
      | some r => (s.result k true r.record).finish k.ref 0
      | none => s.finish k.ref 0x0302
  | 2 =>
    let t := s.stage (k.arg 8 1)
    if t.st = 0 then s.finish k.ref 0x0501
    else if t.st = 1 then s.finish k.ref 0x0502
    else match t.ins[k.arg 9 1]? with
      | some r => (s.result k false r.record).finish k.ref 0
      | none => s.finish k.ref 0x0104
  | _ => (s.result k (s.kindOf k.principal = 4) (toBytes 8 (b2n s.degraded))).finish k.ref 0
def execTelemetryRead (c : HostCmd) (s : State) : Res := s.command c 0x52 doTelemetryRead

end Sys2Proof.Machine
end

