-- ==== Sys2Proof/Machine/Security.lean ====
section
/-! DEFINITION. Security.lean: sessions, attestation, enrolment, the life cycle, firmware and user calibration
(ch. Principals R441-R462; ch. Host interface R433-R436; ch. Power-up R501, R507, R508). -/

namespace Sys2Proof.Machine

/-! ### Sessions (R451, R452) -/

/-- OPEN_SESSION, checked once every earlier AUTH and OPEN_SESSION of its queue pair has completed (R452): a device nonce is
drawn, and the queue pair is OPENING. -/
def doOpenSession : Start := fun k s =>
  if (s.qp k.qp).st ≠ .unbound then s.finish k.ref 0x0601
  else
  let r := s.random 32
  let s := r.2.setQp k.qp { r.2.qp k.qp with st := .opening, openPrincipal := k.arg 0 4, hostNonce := slice k.params 0x10 32, devNonce := r.1 }
  (s.result k false r.1).finish k.ref 0
def execOpenSession (c : HostCmd) (s : State) : Res := s.command c 0x02 doOpenSession

/-- The message of AUTH. -/
def State.authMessage (s : State) (p n : Nat) : Bytes :=
  let q := s.qp n
  ascii "LGAU" ++ toBytes 4 p ++ toBytes 2 n ++ zeros 2 ++ toBytes 8 s.dev.serial ++ padTo q.hostNonce 32 ++ padTo q.devNonce 32 ++ zeros 32

/-- Session keys. -/
def Qp.sessionKeys (q : Qp) (access : Bytes) (p n : Nat) : SessKeys :=
  let key (label len : Nat) : Bytes :=
    Crypto.hkdf access (padTo q.hostNonce 32 ++ padTo q.devNonce 32) (ascii "LGS1" ++ toBytes 4 p ++ toBytes 2 n ++ toBytes 1 label) len
  ⟨key 1 32, key 2 64, key 3 64⟩

def minute : Nat := 60000000000

/-- AUTH for this PRINCIPAL value fails without a check (R452). -/
def State.authBlocked (s : State) (p : Nat) : Bool := s.now < Table.get 0 s.store.authBlock p

/-- A failed AUTH that was checked counts, and the eighth within 60 s blocks the value for 60 s; those that a block turns
away do not count (DEDUCED, log 33). -/
def State.authFailed (s : State) (p : Nat) : State :=
  if s.authBlocked p then s
  else
    let l := s.now :: (Table.get [] s.store.authFails p).filter fun t => s.now - t < minute
    if 8 ≤ l.length then
      { s with store := { s.store with authFails := Table.set [] s.store.authFails p [], authBlock := Table.set 0 s.store.authBlock p (s.now + minute) } }
    else { s with store := { s.store with authFails := Table.set [] s.store.authFails p l } }

/-- AUTH, checked once every earlier AUTH and OPEN_SESSION of its queue pair has completed (R452). -/
def doAuth : Start := fun k s =>
  let q := s.qp k.qp
  if q.st ≠ .opening then s.finish k.ref 0x0601
  else
  let p := q.openPrincipal
  let access := (Table.find s.store.principals p).bind fun x =>
    if !s.authBlocked p && Crypto.hmac x.access (s.authMessage p k.qp) == slice k.params 0 48 then some x.access else none
  let clean (q : Qp) : Qp := { q with openPrincipal := 0, hostNonce := [], devNonce := [] }
  match access with
  | some a =>
    (s.setQp k.qp { clean q with st := .active, principal := p, keys := some (q.sessionKeys a p k.qp), expected := 1, authTime := s.now, bound := none }).finish
      k.ref 0
  | none => ((s.authFailed p).setQp k.qp { clean q with st := .unbound }).finish k.ref 0x0601
def execAuth (c : HostCmd) (s : State) : Res := s.command c 0x03 doAuth

/-! ### Attestation (R458-R460) -/

/-- The module epoch. -/
def State.moduleEpoch (s : State) : Nat := s.power.bootCounter % 2 ^ 32 * 2 ^ 32 + s.power.epochEvents

/-- Table Attested stage record. -/
def State.stageRecord (s : State) (g : Nat) : Bytes :=
  let t := s.stage g
  let head (flags : Nat) : Bytes := toBytes 1 t.st ++ toBytes 1 flags ++ zeros 2 ++ toBytes 4 t.epoch
  match t.cfg with
  | some c =>
    if 2 ≤ t.st then
      head (b2n c.split + 2 * b2n c.fixedCadence + 4 * b2n t.model.isSome) ++ toBytes 4 c.owner ++ toBytes 4 c.model ++ padTo c.digest 48
    else head 0 ++ zeros 56
  | none => head 0 ++ zeros 56

/-- Certificate chain. -/
def certificate : Bytes := (List.range Config.certLen.val).map Config.cert

/-- Bytes 0x000 to 0x51F of the report. -/
def State.report (s : State) (caller : Nat) (nonce : Bytes) : Bytes :=
  let staged := s.fw.staged
  let target := (staged.map (·.target)).getD 0
  ascii "LGAT" ++ toBytes 2 1 ++ toBytes 2 (s.host.lifecycle + 8 * b2n staged.isSome + 16 * target) ++ toBytes 4 (0x584 + certificate.length) ++
    toBytes 4 caller ++ toBytes 8 s.moduleEpoch ++ toBytes 8 s.now ++ toBytes 8 s.dev.serial ++ toBytes 1 s.dev.part.code ++ zeros 1 ++
    toBytes 2 s.dev.siliconRev ++ zeros 4 ++ padTo nonce 48 ++ (List.range 48).map Config.bootHash ++ padTo s.fw.controlHash 48 ++
    padTo s.fw.schedHash 48 ++ padTo ((staged.map (·.hash)).getD []) 48 ++ (List.range 16).flatMap s.stageRecord

/-- ATTEST: the signed report, and the session is bound to the stage epochs it shows. -/
def doAttest : Start := fun k s =>
  let len := 0x584 + certificate.length
  if k.rlen < len then s.finish k.ref 0x0104 len
  else
    let b := s.report k.principal (slice k.params 0 48)
    let r := s.random 48
    let sig := Crypto.ecdsaSign s.dev.identityKey (Crypto.sha384 b) (leNat r.1)
    let s := r.2.result k false (b ++ toBytes 48 sig.1 ++ toBytes 48 sig.2 ++ toBytes 4 certificate.length ++ certificate)
    (s.setQp k.qp { s.qp k.qp with bound := some ((List.range 16).map fun g => (s.stage g).epoch) }).finish k.ref 0 len
def execAttest (c : HostCmd) (s : State) : Res := s.command c 0x08 doAttest

/-! ### Enrolment records (R443-R445) -/

def recKind (b : Bytes) : Nat := fieldAt b 7 1 % 16
def recPrincipal (b : Bytes) : Nat := fieldAt b 8 4
def recSigner (b : Bytes) : Nat := fieldAt b 0xC 4
def recModel (b : Bytes) : Nat := fieldAt b 0x10 4
def recCounter (b : Bytes) : Nat := fieldAt b 0x20 8

/-- Form of a record: MAGIC, VERSION, RES0 fields, reserved codes, SERIAL. -/
def State.recordForm (s : State) (b : Bytes) : Bool :=
  b.length = 432 && slice b 0 4 == ascii "LGEN" && fieldAt b 4 2 = 1 && 1 ≤ fieldAt b 6 1 && fieldAt b 6 1 ≤ 4 && fieldAt b 7 1 < 16 &&
    1 ≤ recKind b && recKind b ≤ 4 && (fieldAt b 6 1 = 4 || recModel b = 0) && fieldAt b 0x14 4 = 0 && fieldAt b 0x18 8 = s.dev.serial &&
    allZero (slice b 0x28 24)

/-- The verification key that SIGNER names. -/
def State.signerKey (s : State) (p : Nat) : Option (Nat × Nat) :=
  if p = 0 then some (s.dev.vendorX, s.dev.vendorY) else (Table.find s.store.principals p).map fun x => (x.vx, x.vy)

/-- The secret of a record whose signature, COUNTER, above the last one accepted from its signer, and WRAPPED verify. -/
def State.recordSecret (s : State) (b : Bytes) : Option Bytes :=
  match s.signerKey (recSigner b) with
  | none => none
  | some v =>
    let x := fieldAt b 0xA0 48
    let y := fieldAt b 0xD0 48
    if !Crypto.ecdsaVerify v.1 v.2 (Crypto.sha384 (b.take 0x150)) (fieldAt b 0x150 48) (fieldAt b 0x180 48) then none
    else if (Table.find s.store.counters (recSigner b)).any (recCounter b ≤ ·) || !Crypto.onCurve x y then none
    else
      let key := Crypto.hkdf (Crypto.ecdh s.dev.identityKey x y) (b.take 64) (ascii "LGEW") 32
      Crypto.gcmDec key (zeros 12) (b.take 64) (slice b 0x100 64) (slice b 0x140 16)

/-- Checks of R444 that every ACTION shares: a status, or the secret. -/
def State.recordChecked (s : State) (b : Bytes) : Nat × Bytes :=
  if s.host.lifecycle = 4 then (0x0604, [])
  else if !s.recordForm b then (0x0104, [])
  else match s.recordSecret b with
    | none => (0x0601, [])
    | some x => (0, x)

/-- A record is answered, and its COUNTER counts once it is accepted. -/
def State.answer (s : State) (b : Bytes) (status : Nat) (t : State) : State :=
  if status ≠ 0 then s.send (.recordStatus status)
  else { t with store := { t.store with counters := Table.put t.store.counters (recSigner b) (recCounter b) } }.send (.recordStatus 0)

/-- Principal of a record in its range: 1 only for the vendor. -/
def recPrincipalOk (b : Bytes) : Bool :=
  let p := recPrincipal b
  if recKind b = 1 then p = 1 else 2 ≤ p && p ≤ 0xFFFFFFFE

/-- States in which an ACTION is allowed. -/
def State.inStates (s : State) (l : List Nat) : Bool := l.contains s.host.lifecycle

/-- The signer that an ENROL or REMOVE of a kind needs. -/
def State.signerOk (s : State) (b : Bytes) : Bool :=
  if recKind b = 1 || recKind b = 3 then recSigner b = 0 else recSigner b ≠ 0 && s.kindOf (recSigner b) = 3

/-- ENROL. -/
def State.enrolStatus (s : State) (b : Bytes) : Nat :=
  let p := recPrincipal b
  if !recPrincipalOk b || !s.signerOk b then 0x0605
  else if !s.inStates (if recKind b = 1 then [0] else if recKind b = 3 then [0, 1] else [0, 1, 2, 3]) then 0x0604
  else if (Table.find s.store.principals p).isSome || s.store.removed.contains p then 0x0605
  else if 262144 ≤ s.store.principals.length then 0x0802 else 0
def State.enrolled (s : State) (b secret : Bytes) : State :=
  let x : Principal := { kind := recKind b, access := slice secret 0 32, vx := fieldAt b 0x40 48, vy := fieldAt b 0x70 48
                         wrap := if recKind b = 4 then slice secret 32 32 else [] }
  { s with store := { s.store with principals := Table.put s.store.principals (recPrincipal b) x } }

/-- The sessions of a principal end under R425. -/
def State.endSessions (s : State) (p : Nat) : State :=
  s.host.qps.foldl (fun s q => if (s.qp q.1).principal = p then s.endSession q.1 else s) s

/-- REPLACE. -/
def State.replaceStatus (s : State) (b : Bytes) : Nat :=
  if recSigner b ≠ recPrincipal b || s.kindOf (recPrincipal b) ≠ recKind b then 0x0605
  else if !s.inStates [0, 1, 2, 3] then 0x0604 else 0
def State.replaced (s : State) (b secret : Bytes) : State :=
  match Table.find s.store.principals (recPrincipal b) with
  | none => s
  | some x =>
    let x := { x with access := slice secret 0 32, vx := fieldAt b 0x40 48, vy := fieldAt b 0x70 48 }
    { s with store := { s.store with principals := Table.put s.store.principals (recPrincipal b) x } }.endSessions (recPrincipal b)

/-- REMOVE. -/
def State.removeStatus (s : State) (b : Bytes) : Nat :=
  let p := recPrincipal b
  let left := (s.store.principals.filter fun x => x.1 ≠ p && x.2.kind = 3).length
  if s.kindOf p ≠ recKind b || !s.signerOk b then 0x0605
  else if recKind b = 1 || recKind b = 3 then
    if !s.inStates [0, 1, 3] then 0x0604 else if left = 0 then 0x0605 else 0
  else if !s.inStates [0, 1, 2, 3] then 0x0604 else 0

/-- The stage of an owner that is removed is quiesced and unrigged (R444, R468). -/
def State.removeStage (s : State) (g : Nat) : State :=
  match (s.stage g).st with
  | 2 => s.startQuiesce g .remove none
  | 3 => s.setStage g { s.stage g with why := .remove }
  | 4 => if (s.stage g).scrub.isSome then s.setStage g { s.stage g with why := .fence } else (s.unrig g (nextEpoch (s.stage g).epoch)).startRig
  | _ => s

def State.removed (s : State) (b : Bytes) : State :=
  let p := recPrincipal b
  let s := s.endSessions p
  let s := s.costumes.dir.foldl (fun s e => if e.2.customer = p && e.2.st = 2 then s.startRetire e.1 none (none, 0) else s) s
  let s := (List.range 16).foldl (fun s g => if (s.stage g).cfg.map (·.owner) = some p then s.removeStage g else s) s
  { s with store := { s.store with principals := Table.erase s.store.principals p, removed := p :: s.store.removed
                                   modelKeys := s.store.modelKeys.filter fun m => m.2.1 ≠ p } }

/-- MODEL_KEY. -/
def State.modelKeyStatus (s : State) (b : Bytes) : Nat :=
  if recSigner b ≠ recPrincipal b || recKind b ≠ 2 || s.kindOf (recPrincipal b) ≠ 2 then 0x0605
  else if !s.inStates [0, 1, 2, 3] then 0x0604
  else match Table.find s.store.modelKeys (recModel b) with
    | some m => if m.1 = recPrincipal b then 0 else 0x0605
    | none => if 256 ≤ s.store.modelKeys.length then 0x0802 else 0
def State.modelKeyed (s : State) (b secret : Bytes) : State :=
  { s with store := { s.store with modelKeys := Table.put s.store.modelKeys (recModel b) (recPrincipal b, slice secret 0 32) } }

/-- Processes a record: its checks and its effect, as its ACTION gives. A reserved ACTION has failed the check of its form. -/
def State.process (s : State) (b : Bytes) : State :=
  let c := s.recordChecked b
  let go (status : Nat) (t : State) : State := let st := if c.1 ≠ 0 then c.1 else status; s.answer b st t
  match fieldAt b 6 1 with
  | 1 => go (s.enrolStatus b) (s.enrolled b c.2)
  | 2 => go (s.replaceStatus b) (s.replaced b c.2)
  | 3 => go (s.removeStatus b) (s.removed b)
  | _ => go (s.modelKeyStatus b) (s.modelKeyed b c.2)

/-- The records that have waited for READY are processed in arrival order (R468). -/
def State.processWaiting (s : State) : State := s.records.foldl State.process { s with records := [] }

/-- The management port answers from 150 ms after SUPPLY_VALID, in the module timestamp, until SUPPLY_VALID falls (R518). -/
def State.portAnswers (s : State) : Bool := s.power.supplyValid && s.power.phase != .off && 0x8F0D180 ≤ s.now

/-- A record reaches the management port in the row of one ACTION. One that comes during a life-cycle transition waits for READY
(R468); at other times it is processed at once, in a reset's wipe too (R518). A record with another ACTION of the table changes
nothing here, and a reserved one is refused by any row. -/
def State.record (s : State) (b : Bytes) (action : Nat) : Res :=
  guarded (s.portAnswers && (fieldAt b 6 1 = action || !(1 ≤ fieldAt b 6 1 && fieldAt b 6 1 ≤ 4))) s
    (if s.power.phase = .lifeWipe || (s.power.phase = .running && !s.host.ready) then { s with records := s.records ++ [b] } else s.process b)
def execEnrol (rec : Bytes) (s : State) : Res := s.record rec 1
def execReplace (rec : Bytes) (s : State) : Res := s.record rec 2
def execRemove (rec : Bytes) (s : State) : Res := s.record rec 3
def execModelKey (rec : Bytes) (s : State) : Res := s.record rec 4

/-! ### Firmware (R433, R434, R450, R501) -/

/-- An FW_ACTIVATE taken before a command is in progress: its switch runs, or it waits. -/
def State.activating (s : State) (id : Nat) : Bool := s.fw.switching.isSome || s.host.held.any fun h => h.opcode = 0x61 && h.id < id

/-- A firmware image's header: its RES0 fields are ignored (R9). -/
def fwHeaderOk (b : Bytes) : Bool := slice b 0 4 == ascii "LGFW"

/-- FW_STAGE. A header or a length that does not fit is DESC_TYPE (DESIGN CHOICE, log 34). -/
def doFwStage : Start := fun k s =>
  let b := k.data
  let n := fieldAt b 0x18 4
  let target := fieldAt b 4 1 % 2
  if s.activating k.id then s.hold k false
  else if b.length < 160 + n then s.finish k.ref 0x0104
  else if !Crypto.ecdsaVerify s.dev.vendorX s.dev.vendorY (Crypto.sha384 (b.take (64 + n))) (fieldAt b (64 + n) 48) (fieldAt b (112 + n) 48) then
    s.finish k.ref 0x0603
  else if !fwHeaderOk b then s.finish k.ref 0x0104
  else if target ≠ k.arg 0 1 || fieldAt b 8 4 < nth 0 s.dev.minSvn target then s.finish k.ref 0x0603
  else
    let img : Staged := ⟨target, fieldAt b 0x10 8, fieldAt b 8 4, bit (fieldAt b 4 1) 1, Crypto.sha384 (b.take (160 + n))⟩
    ((({ s with fw := { s.fw with staged := some img } } : State).event 5).epochEvents 1).finish k.ref 0
def execFwStage (c : HostCmd) (s : State) : Res := s.command c 0x60 doFwStage

/-- A die after a wipe of its SRAM: its error log and the counters of its ERRLOG_READ header are empty (R480, R481), but those
of a fenced die, which stay readable until a module-wide reset (R491); registers, fences and proposals stay. -/
def Die.afterWipe (d : Die) : Die :=
  let d := { d with mover0 := [], mover1 := [] }
  if d.fenced then d
  else { d with
    correctable := 0, unrecovered := 0, formatReserved := 0, epochStale := 0, poisoned := 0
    ovf := [false, false, false, false, false], log := [] }

/-- A control die's SRAM is written with zeros as it is restarted, and with it its error log and their counters (R480, R501). -/
def State.restartXd (s : State) (x : Nat) : State := s.setDie (96 + x) (s.die (96 + x)).afterWipe

/-- Steps 2 to 4 of R501: the standby takes over with the staged image, which becomes the boot image, and the other die is
restarted. -/
def State.switched (s : State) : State :=
  match s.fw.staged with
  | none => { s with fw := { s.fw with switching := none, paused := false } }
  | some i =>
    let f := if i.target = 0 then { s.fw with control := i.version, controlHash := i.hash } else { s.fw with sched := i.version, schedHash := i.hash }
    let s := { s with fw := { f with staged := none, switching := none, paused := false, activeXd := 1 - s.fw.activeXd } }
    let s := s.restartXd (1 - s.fw.activeXd)
    let s := if i.raise then { s with dev := { s.dev with minSvn := s.dev.minSvn.set i.target i.svn } } else s
    (s.event 5).epochEvents 1

/-- FW_ACTIVATE: it waits for a rig, then the standby restarts; the row presented again is the end of step 1, at which
intake pauses, and once more it is the switch (DESIGN CHOICE, log 32). -/
def doFwActivate : Start := fun k s =>
  if s.fw.switching = some k.ref then
    if s.fw.paused then s.switched.finish k.ref 0
    else ({ s with fw := { s.fw with paused := true } } : State).hold k false
  else if s.activating k.id then s.hold k false
  else if s.fw.staged.isNone then (s.epochEvents 1).finish k.ref 0x0801
  else if s.rigging then s.hold k false
  else (({ s with fw := { s.fw with switching := some k.ref, paused := false } } : State).restartXd (1 - s.fw.activeXd)).hold k false
def execFwActivate (c : HostCmd) (s : State) : Res := s.command c 0x61 doFwActivate

/-- FW_SWITCH_TIMEOUT (R501): the standby, still in step 1, is restarted with the running image. -/
def execFwSwitchTimeout (s : State) : Res :=
  match s.fw.switching with
  | none => .next s
  | some r =>
    let t := { s with fw := { s.fw with switching := none }
                      host := { s.host with held := s.host.held.filter fun h => !(h.qp = r.1 && h.id = r.2) } }.restartXd (1 - s.fw.activeXd)
    guarded (!s.fw.paused) s (t.finish r 0x0801)

/-- QP_DISABLED (R416): a closing queue pair reaches DISABLED; a scrub pass or a switch that one of its commands began
has run to its end. -/
def State.outlived (s : State) (qp : Nat) : State :=
  let s := s.endPasses qp
  match s.fw.switching with
  | some r => if r.1 = qp then s.switched else s
  | none => s
def execQpDisabled (qp : Nat) (s : State) : Res :=
  guarded ((s.qp qp).st = .closing) s (let s := s.outlived qp; s.setQp qp (s.qp qp).closed)

/-! ### User calibration (R507, R508) -/

/-- Die of a thermal sensor (R525). -/
def sensorDie (n : Nat) : Nat :=
  if n < 384 then n / 6 else if n < 480 then 64 + (n - 384) / 4 else if n < 504 then 88 + (n - 480) / 3 else 96 + (n - 504) / 2
def Part.hasSensor (p : Part) (n : Nat) : Bool := n < 512 && p.hasDie (sensorDie n)

/-- The signed byte of a record at an offset. -/
def calByte (b : Bytes) (o : Nat) : Int := signed (fieldAt b o 1) 8

/-- Factory settings of a peer-link lane; a lane that `lanes` does not list permits every setting (log 3). -/
def Device.lane (d : Device) (l : Nat) : LaneFuse := nth ⟨0, 0, 15, 0, 0, 15⟩ d.lanes l

/-- The checks of R508. -/
def Device.calOk (d : Device) (b : Bytes) : Bool :=
  let range (x lo hi : Int) : Bool := lo ≤ x && x ≤ hi
  slice b 0 4 == ascii "LGCL" && fieldAt b 4 2 = 1 && fieldAt b 6 1 = d.part.code && fieldAt b 7 1 = 0 && fieldAt b 8 8 = d.serial &&
    allZero (slice b 0x10 48) && allZero (slice b 0xA4 28) && allZero (slice b 0x3C0 64) &&
    ((List.range 100).all fun i => !d.part.hasDie i || range (calByte b (0x40 + i)) (-25) 25) &&
    ((List.range 512).all fun n => !d.part.hasSensor n || range (calByte b (0xC0 + n)) (-64) 64) &&
    (List.range 128).all fun l =>
      let w := fieldAt b (0x2C0 + 2 * l) 2
      let x := bits w 8 4
      let c := bits w 0 4
      let f := d.lane l
      16 * d.part.lds ≤ l || (bits w 12 3 = 0 && bits w 4 4 = 0 &&
        (!bit w 15 || (f.presetMin ≤ x && x ≤ f.presetMax && f.ctleMin ≤ c && c ≤ f.ctleMax)))

/-- CALIBRATION_WRITE. -/
def doCalibrationWrite : Start := fun k s =>
  if s.dev.calOk k.data then { s with thermal := { s.thermal with calStored := k.data } }.finish k.ref 0 else s.finish k.ref 0x0104
def execCalibrationWrite (c : HostCmd) (s : State) : Res := s.command c 0x71 doCalibrationWrite

/-! ### The life cycle (R436, R461, R462) -/

/-- A transition of Table Life-cycle transitions that a principal kind may request. -/
def State.lifeAllowed (s : State) (kind target : Nat) : Bool :=
  match s.host.lifecycle, target with
  | 0, 1 => kind = 1 && s.store.principals.any fun p => p.2.kind = 3
  | 1, 2 => kind = 3
  | 2, 3 => kind = 3
  | 3, 2 => kind = 3
  | 3, 4 => kind = 3 || kind = 1
  | _, _ => false

/-- J_TEST is enabled (R461, R520): in TEST and MAINTENANCE. In every other state, and without supply, TDO is
high-impedance and the TAP is held in Test-Logic-Reset. The SMD switches the port as the transition takes effect. -/
def State.testPort (s : State) : Bool := s.power.supplyValid && (s.host.lifecycle = 0 || s.host.lifecycle = 3)

/-- LIFECYCLE_SET. One that comes before an accepted transition begins takes its place (DESIGN CHOICE, log 34). -/
def doLifecycleSet : Start := fun k s =>
  if s.lifeAllowed (s.kindOf k.principal) (k.arg 0 1) then ({ s with host := { s.host with lifeTarget := some (k.arg 0 1) } } : State).finish k.ref 0
  else s.finish k.ref 0x0604
def execLifecycleSet (c : HostCmd) (s : State) : Res := s.command c 0x70 doLifecycleSet

/-- What a transition does to the protected store (R461). -/
def Store.afterLife (t : Store) (target : Nat) (fromTest : Bool) : Store :=
  if target = 4 then { principals := [], removed := [], counters := [], modelKeys := [], authFails := [], authBlock := [], keyUses := [] }
  else if fromTest then { t with principals := t.principals.filter fun p => p.2.kind = 1 || p.2.kind = 3, modelKeys := [] }
  else t

/-- A queue pair whose session a transition closes: UNBOUND, its configuration kept, no completion (R436). -/
def Qp.dropped (q : Qp) : Qp :=
  let q := { q with cmds := [], closeTaken := false }
  if q.st = .disabled || q.st = .closing then q else { q.unbind with openPrincipal := 0, hostNonce := [], devNonce := [] }

/-- The wipe of R462 and what it ends. -/
def State.lifeWipe (s : State) : State :=
  let stages := Table.mapped Stage.init s.stages fun g => { Stage.init with epoch := g.epoch }
  let clusters := Table.mapped Cluster.init s.clusters fun c => { Cluster.init with rm := c.rm, flags := c.flags }
  let ports := Table.mapped Port.init s.ports fun p => { p with retrans := [], waiting := [], wrap := false }
  let s := { s with
    mem := [], clusters := clusters, dies := Table.mapped Die.init s.dies Die.afterWipe, signals := [], acks := [], stages := stages, modRuns := [], rig := none, requests := []
    costumes := { dir := [], fresh := 0, freed := [], audit := [], auditNext := 0, res := [], scrubs := [], reserve := [], cache := [], ckpts := [], ckAt := [], ckLoc := [], order := 0 }
    jobs := [], ports := ports
    storage := { s.storage with ops := [] }, poison := [] }
  s.rekeyAll

/-- The completion of an accepted LIFECYCLE_SET has been posted (R436): none waits for space in its queue. -/
def State.lifePosted (s : State) : Bool :=
  s.host.qps.all fun q => q.2.cmds.all fun c => c.opcode ≠ 0x70 || c.waiting.all (·.status ≠ 0)

/-- LIFECYCLE_TRANSITION: an accepted transition takes effect. -/
def State.transition (s : State) (target : Nat) : State :=
  let s := match s.rig with
    | some r => match r.cmd with
      | some c => s.finish c 0x0501
      | none => s
    | none => s
  let left := ((List.range 16).filter fun g => (s.stage g).st = 2).length
  let was := s.fw.staged.isSome
  let s := { s with
    host := { s.host with ready := false, lifecycle := target, lifeTarget := none, held := [], qps := Table.mapped Qp.init s.host.qps Qp.dropped }
    store := s.store.afterLife target (s.host.lifecycle = 0)
    fw := { s.fw with staged := none, switching := none, paused := false }
    dev := if target = 4 then { s.dev with seedReadable := false, storeKey := [] } else s.dev
    thermal := if target = 4 then { s.thermal with calStored := [] } else s.thermal
    power := { s.power with phase := .lifeWipe, defaultRig := true } }
  let s := ((s.lifeWipe.event 0).event 4).epochEvents (left + 1)
  if was then s.event 5 else s
def execLifecycleTransition (s : State) : Res :=
  match s.host.lifeTarget with
  | some t => guarded (s.power.phase = .running && s.lifePosted) s (s.transition t)
  | none => .next s

end Sys2Proof.Machine
end

