-- ==== Sys2Proof/Machine/Power.lean ====
section
/-! DEFINITION. Power.lean: power, resets, the storage port, telemetry, throttling, the thermal trip and the
management port (ch. Power-up R493-R500; ch. Module connections R513-R528; ch. Host interface R408, R438, R439). -/

namespace Sys2Proof.Machine

/-! ### Module-wide resets (R497-R500) -/

/-- The host side of the module after a module-wide reset: everything at its reset value but the life-cycle state; the link is
down (R12, R500). -/
def HostIf.afterReset (h : HostIf) : HostIf := { State.reset.host with lifecycle := h.lifecycle }

/-- Firmware after a reset: the boot images, nothing staged (R510). -/
def Firmware.afterReset (f : Firmware) : Firmware := { f with staged := none, switching := none, paused := false, activeXd := 0 }

/-- The protected store survives; the failed AUTH commands are SMD state (R498). -/
def Store.afterReset (t : Store) : Store := { t with authFails := [], authBlock := [] }

/-- What a module-wide reset leaves: fuses, protected store, boot images, storage, and of power only what is outside the
wiped dies. The stored calibration takes effect (R509). -/
def State.wiped (s : State) (phase : Phase) : State :=
  { State.reset with
    dev := s.dev
    power := { s.power with phase := phase, storPerst := true, epochEvents := 0, defaultRig := true }
    thermal := { State.reset.thermal with calStored := s.thermal.calStored, calInForce := s.thermal.calStored }
    host := s.host.afterReset
    store := s.store.afterReset
    fw := s.fw.afterReset
    keyGen := s.keyGen
    draws := s.draws
    wire := s.wire
    pending := s.pending }.rekeyAll

/-- The PTD keeps its own error log and counters over a warm reset; a proposal goes (R491, R497). -/
def Die.ptdKept (d : Die) : Die := { d with proposed := false, fenced := false, cause := 0, hostCorr := 0, hostUnrec := 0, hostCorrOvf := false, hostUnrecOvf := false }

/-- A warm reset (R500): the PTD keeps time, clock and throttle inputs, fuse readings, error log and sensor readings. The
telemetry mirror is a register file of BAR0 and is reset (R408). -/
def State.warmReset (s : State) : State :=
  let t := s.wiped .warmWipe
  let t := { t with
    power := { t.power with bootCounter := t.power.bootCounter + 1, resetAt := s.now, perstAt := s.now }
    thermal := { t.thermal with sensors := s.thermal.sensors } }
  t.setDie 99 (s.die 99).ptdKept

/-- The supply is gone: every die is held in reset, and what ran is lost (R499). -/
def State.supplyLost (s : State) : State :=
  let t := s.wiped .off
  { t with power := { t.power with supplyValid := false, defaultRig := false } }

/-- A cold reset begins (R493, R496, R497). -/
def State.coldReset (s : State) : State :=
  let t := s.wiped .coldWipe
  { t with power := { t.power with supplyValid := true, tripLatched := false, timestamp := 0, resetAt := 0, perstAt := 0x5F5E100, bootCounter := t.power.bootCounter + 1 } }

/-- RESET (R500): a warm reset, and no completion. -/
def doReset : Start := fun _ s => s.warmReset
def execReset (c : HostCmd) (s : State) : Res := s.command c 0x05 doReset

/-- SUPPLY_VALID_ASSERT (R493, R499): the converters run and the rails are in regulation. -/
def execSupplyValidAssert (s : State) : Res := guarded (!s.power.supplyValid && s.power.converters) s s.coldReset

/-- SUPPLY_VALID_DEASSERT (R499, R514). -/
def execSupplyValidDeassert (s : State) : Res := guarded s.power.supplyValid s s.supplyLost

/-- HARDWARE_WIPE_COMPLETE (R493, R500, R462): the stages of the default image are RIGGING from here on, until the row of its rig
has brought each to READY (R494). READY follows at the next clock. -/
def State.wipeDone (s : State) : State :=
  let s := { s with power := { s.power with phase := .running, defaultRig := !s.defaultStages.isEmpty } }
  s.defaultStages.foldl (fun s g => s.setStage g { s.stage g with st := 1 }) s
def execHardwareWipeComplete (s : State) : Res :=
  guarded (s.power.phase = .coldWipe || s.power.phase = .warmWipe || s.power.phase = .lifeWipe) s s.wipeDone

/-- MOD_EN_HIGH (R516, R528): a trip stays latched unless MOD_EN has been low for 1 s. -/
def execModEnHigh (lowForOneSecond : Bool) (s : State) : Res :=
  guarded (!s.power.modEn) s
    { s with power := { s.power with modEn := true, converters := !s.power.tripLatched || lowForOneSecond } }

/-- MOD_EN_LOW (R515, R516): the converters stop; SUPPLY_VALID falls within 1 ms. -/
def execModEnLow (s : State) : Res := guarded s.power.modEn s { s with power := { s.power with modEn := false, converters := false } }

/-- PERST_ASSERT (R500, R510): a warm reset, unless a power-up or a warm reset runs already. -/
def State.perstLow (s : State) : State :=
  let s := { s with power := { s.power with perst := true }, host := { s.host with linkWidth := 0, linkRate := 0 } }
  if s.power.phase = .running || s.power.phase = .lifeWipe then s.warmReset else s
def execPerstAssert (s : State) : Res := guarded (!s.power.perst) s s.perstLow

/-- Lanes and rate in MT/s of the next training of the host link: free values (R402, log 17). -/
def hostLanes (draw : Nat) : Nat := nth 0 [1, 2, 4, 8, 16] (Config.hostLanes draw).val
def hostRate (draw : Nat) : Nat := nth 0 [2500, 5000, 8000, 16000, 32000, 64000] (Config.hostSpeed draw).val

/-- The host link trains to a width and a rate. -/
def State.trained (s : State) : State :=
  { s with host := { s.host with linkWidth := hostLanes s.draws, linkRate := hostRate s.draws }, draws := s.draws + 1 }

/-- PERST_DEASSERT (R407): the link trains, where there is supply, and the configuration-ready time counts from here, but
from no earlier than 100 ms after SUPPLY_VALID. -/
def State.perstHigh (s : State) : State :=
  let t := { s with power := { s.power with perst := false, perstAt := max s.now 0x5F5E100 } }
  if s.power.supplyValid then t.trained else t
def execPerstDeassert (s : State) : Res := guarded s.power.perst s s.perstHigh

/-- Levels of the module's outputs on J_HOST, J_STOR and J_MGT (R511, R513, R515); the presence pins are tied to ground. -/
structure Pins where
  pwrOk : Bool
  thermTripN : Bool
  storPerstN : Bool
  hostPrsntN : Bool
  modPrsntN : Bool
  deriving DecidableEq, Repr

/-- The outputs as they stand. -/
def State.pins (s : State) : Pins :=
  { pwrOk := s.power.supplyValid, thermTripN := !s.power.tripLatched, storPerstN := !s.power.storPerst, hostPrsntN := false, modPrsntN := false }

/-! ### Function resets (R408) -/

/-- The error-summary registers of a die at their reset values. -/
def Die.summaryReset (d : Die) : Die := { d with hostCorr := 0, hostUnrec := 0, hostCorrOvf := false, hostUnrecOvf := false }

/-- Configuration space and BAR0 registers at their reset values; sessions closed as by EN = 0. -/
def State.functionReset (s : State) : State :=
  let s := s.host.qps.foldl (fun s q =>
    if (s.qp q.1).en then (s.disableQp q.1).outlived q.1 else if (s.qp q.1).st = .closing then s.outlived q.1 else s) s
  let h := s.host
  { s with
    host := { h with
      evtVector := 0, evtIen := false, evt := State.reset.host.evt, evtMsg := false, unrecovered := false, msix := [], pba := []
      pmState := 0, devControl := State.reset.host.devControl, msixControl := 0, cfgCommand := 0, bar0 := 0, aer := 0, qps := [] }
    dies := Table.mapped Die.init s.dies Die.summaryReset
    thermal := { s.thermal with
      sampleTime := 0, inputMv := 0, inputMw := 0, powerW := [0, 0, 0, 0], mirrorT := [0, 0, 0, 0], mirrorTj := [0, 0, 0, 0] } }

/-- FUNCTION_RESET: 0 a Hot Reset, 1 DL_Down, 2 D3hot to D0. -/
def execFunctionReset (kind : Nat) (s : State) : Res := guarded (s.hostReach && kind < 3) s s.functionReset

/-! ### The storage port (R438-R440, R513) -/

/-- Time of STOR_PERST#'s deassertion from the start of a module-wide reset: between 100 ms and 260 ms, with the control dies
running (DESIGN CHOICE, log 35). -/
def storPerstTime : Nat := 200000000

/-- The I/O queue pairs of a controller are asked for and created, each of depth 1,024 (R438, R439). -/
def State.nvmeCreate (s : State) (c n : Nat) : State :=
  (List.range n).foldl (fun s q => (s.send (.nvmeAdmin c (.createCq (q + 1) 1024))).send (.nvmeAdmin c (.createSq (q + 1) 1024)))
    (s.send (.nvmeAdmin c (.setQueues n)))

/-- A controller is identified, then its namespaces, and its queues are created. -/
def State.nvmeAdmit (s : State) (i : Nat) (c : NvmeController) : State :=
  let s := (s.send (.nvmeAdmin i (.identify 1 0))).send (.nvmeAdmin i (.identify 2 0))
  (c.namespaces.foldl (fun s n => s.send (.nvmeAdmin i (.identify 0 n.nsid))) s).nvmeCreate i c.granted

/-- STORAGE_ENUMERATION: once after each module-wide reset, no earlier than 100 ms after STOR_PERST# has been deasserted (R438,
R513). The storage link has trained to a width and a rate (log 17). -/
def State.enumerated (s : State) (l : List NvmeController) : State :=
  let l := (l.take 16).map fun c => { c with granted := min c.granted (64 / (l.take 16).length) }
  let s := { s with storage := { s.storage with width := hostLanes s.draws, rate := hostRate s.draws, enumerated := true, controllers := l }
                    draws := s.draws + 1 }
  l.zipIdx.foldl (fun s c => s.nvmeAdmit c.2 c.1) s
def execStorageEnumeration (controllers : List NvmeController) (s : State) : Res :=
  guarded (s.power.supplyValid && !s.power.storPerst && !s.storage.enumerated && s.power.resetAt + storPerstTime + 100000000 ≤ s.now) s
    (s.enumerated controllers)

/-- The storage link runs below x8 or below 16 GT/s (R404, R512). -/
def State.storDegraded (s : State) : Bool := s.storage.width ≠ 0 && (s.storage.width < 8 || s.storage.rate < 16000)

/-- Takes an outstanding storage command off. -/
def State.nvmeTake (s : State) (id : Nat) : State := { s with storage := { s.storage with ops := s.storage.ops.filter fun o => o.id ≠ id } }

/-- Issues a storage command again: once more on another I/O queue of its controller, where that has granted more than one. -/
def State.nvmeAgain (s : State) (o : NvmeOp) (second : Bool) : State :=
  let o := { o with id := s.storage.nextId, second := second, queue := if second then o.queue % s.nvmeQueues o.controller + 1 else o.queue }
  { s with storage := { s.storage with ops := s.storage.ops ++ [o], nextId := s.storage.nextId + 1 } }.send (.nvme o)

/-- The call of a TUNE_OPEN whose checkpoint is read from storage. -/
def State.callOf (s : State) (qp id : Nat) (params data : Bytes) : Option Call :=
  (s.cmdOf (qp, id)).map fun c => ⟨qp, id, c.cid, c.seq, c.opcode, (s.qp qp).principal, params, data, c.rptr, c.rlen⟩

/-- A package for a load has been read: it goes to the cache, and the load goes on from there, or ends where the cache
cannot hold it. -/
def State.fetched (s : State) (stage index : Nat) (b : Bytes) : State :=
  match s.resident stage index with
  | none => s
  | some r =>
    if !r.fetching then s
    else
      let f : AuditFlags := { spec := r.spec, adopted := r.adopted }
      let s := (s.audit index 0x02 stage (pkgGen b) b.length (r.qp, r.principal) f).putCache index b
      let r := { r with fetching := false }
      let s := s.setResident r
      if (s.cached index).isSome then s else State.loadResult r (s.finishLoad r b)

/-- What a storage command that succeeds was for. -/
def State.nvmeDone (s : State) (o : NvmeOp) (data : Bytes) : State :=
  let b := slice data 0 o.len
  match o.purpose with
  | .register qp id i => s.registered qp id i b
  | .load g i => s.fetched g i b
  | .model qp id g key => s.modelLoaded (qp, id) g key b
  | .restore qp id p d =>
    match s.callOf qp id p d with
    | some k => let st := s.openStatus k; if st ≠ 0 then s.finish k.ref st else s.restoreJob k b
    | none => s
  | .rollback i => s.rollbackTo i b
  | .checkpoint qp id i => (s.audit i 0x09 0 (s.entry i).gen o.len (some qp, (s.entry i).customer)).finish (qp, id) 0 o.len

/-- What a storage command that fails twice was for: PARITY_UNRECOVERED, and its status in RESULT1 (R439). -/
def State.nvmeFailed (s : State) (o : NvmeOp) (status : Nat) : State :=
  match o.purpose with
  | .register qp id i => (s.freeEntry i).finish (qp, id) 0x0702 0 status
  | .load g i =>
    match s.resident g i with
    | some r => if r.fetching then State.loadResult r (s.failLoad r 0x0702 status, 0x0702) status else s
    | none => s
  | .model qp id g _ => (s.failModel g).finish (qp, id) 0x0702 0 status
  | .restore qp id _ _ => s.finish (qp, id) 0x0702 0 status
  | .rollback i => s.rollbackTo i []
  | .checkpoint qp id i =>
    ({ s with costumes := { s.costumes with ckLoc := Table.erase s.costumes.ckLoc i } } : State).finish (qp, id) 0x0702 0 status

/-- A first failure issues the command once more; a second one fails it. -/
def State.nvmeError (s : State) (o : NvmeOp) (status : Nat) : State :=
  let s := s.nvmeTake o.id
  if o.second then s.nvmeFailed o status else s.nvmeAgain o true

def State.nvmeOp (s : State) (id : Nat) : Option NvmeOp := s.storage.ops.find? fun o => o.id = id

/-- NVME_COMPLETION. -/
def execNvmeCompletion (id status : Nat) (data : Bytes) (s : State) : Res :=
  match s.nvmeOp id with
  | none => .next s
  | some o => .next (if status % 65536 = 0 then (s.nvmeTake id).nvmeDone o data else s.nvmeError o (status % 65536))

/-- NVME_TIMEOUT: no completion within 2 s. -/
def execNvmeTimeout (id : Nat) (s : State) : Res :=
  match s.nvmeOp id with
  | none => .next s
  | some o => .next (s.nvmeError o 0xFFFF)

/-- NVME_CONTROLLER_FATAL: the controller is reset, its queues are created again, and its outstanding commands are issued again as
first issues. -/
def State.nvmeReset (s : State) (c : Nat) : State :=
  let l := s.storage.ops.filter fun o => o.controller = c
  l.foldl (fun s o => (s.nvmeTake o.id).nvmeAgain o false) ((s.send (.nvmeReset c)).nvmeCreate c (s.nvmeQueues c))
def execNvmeControllerFatal (controller : Nat) (s : State) : Res :=
  guarded (controller < s.storage.controllers.length) s (s.nvmeReset controller)

/-! ### Sensors, telemetry, throttling (R413, R509, R525-R527) -/

/-- The user-calibrated reading of a sensor (R509). -/
def State.reading (s : State) (n : Nat) : Int :=
  Table.get 0 s.thermal.sensors n + (if s.thermal.calInForce.isEmpty then 0 else calByte s.thermal.calInForce (0xC0 + n))

/-- Core rail of a die against nominal, in mV: factory trim and the offset in force (R509). -/
def State.rail (s : State) (die : Nat) : Int :=
  nth 0 s.dev.trims die + (if s.thermal.calInForce.isEmpty then 0 else calByte s.thermal.calInForce (0x40 + die))

/-- Transmitter preset and CTLE setting from which a peer-link lane trains: the override in force, else the factory's
(R509, R521). -/
def State.equalization (s : State) (l : Nat) : Nat × Nat :=
  let w := fieldAt s.thermal.calInForce (0x2C0 + 2 * l) 2
  if bit w 15 then (bits w 8 4, bits w 0 4) else ((s.dev.lane l).preset, (s.dev.lane l).ctle)

/-- Pulse `k` of every 16 of CORE is removed at throttle step `t` (R505). -/
def pulseRemoved (t k : Nat) : Bool := k * t / 16 < (k + 1) * t / 16

/-- Sensors of a quadrant that the part carries. -/
def Part.quadrantSensors (p : Part) (q : Nat) : List Nat := (List.range 512).filter fun n => p.hasSensor n && quadrantOf (sensorDie n) = q

/-- The hottest user-calibrated reading of a quadrant. -/
def State.hottest (s : State) (q : Nat) : Int :=
  match s.dev.part.quadrantSensors q with
  | [] => 0
  | n :: l => l.foldl (fun m k => max m (s.reading k)) (s.reading n)

/-- THERMAL_SAMPLE (R525, R506): the readings of the sensors, by number, are corrected by their fused offsets. -/
def State.sampled (s : State) (l : List Int) : State :=
  let put (t : Tab Int) (p : Int × Nat) : Tab Int :=
    if s.dev.part.hasSensor p.2 then Table.set 0 t p.2 (p.1 + nth 0 s.dev.sensorOffset p.2) else t
  { s with thermal := { s.thermal with sensors := (l.take 512).zipIdx.foldl put s.thermal.sensors } }
def execThermalSample (readings : List Int) (s : State) : Res := guarded s.power.supplyValid s (s.sampled readings)

/-- TELEMETRY_UPDATE (R413): the mirror as a whole. -/
def State.mirrored (s : State) (mv mw : Nat) (pw : List Nat) : State :=
  { s with thermal := { s.thermal with
      sampleTime := s.now, inputMv := mv % 2 ^ 32, inputMw := mw % 2 ^ 32, powerW := (List.range 4).map fun q => nth 0 pw q % 65536
      mirrorT := s.thermal.t, mirrorTj := (List.range 4).map fun q => unsigned (s.hottest q) 16 } }
def execTelemetryUpdate (inputMv inputMw : Nat) (powerW : List Nat) (s : State) : Res :=
  guarded s.power.supplyValid s (s.mirrored inputMv inputMw powerW)

/-- Peak and design input power in mW. -/
def Part.peakMw : Part → Nat
  | .lg100 => 13500000
  | .lg052 => 6800000
def Part.designMw : Part → Nat
  | .lg100 => 12000000
  | .lg052 => 6100000

/-- The pseudocode of R526. -/
def State.throttled (s : State) (p : Nat) : State :=
  let limit := s.dev.part.peakMw
  let th := (List.range 4).map fun q =>
    let x := nth 0 s.thermal.th q
    if 1440 ≤ s.hottest q then min 15 (x + 1) else if s.hottest q < 1408 then x - 1 else x
  let pw := if limit < p then min 15 (s.thermal.pw + 1) else if 100 * p < 95 * limit then s.thermal.pw - 1 else s.thermal.pw
  let t := { s with thermal := { s.thermal with th := th, pw := pw, t := th.map fun x => max x pw } }
  if t.degraded = s.degraded then t else t.event 2
def execThrottleEvaluation (inputMw : Nat) (s : State) : Res := guarded s.power.supplyValid s (s.throttled inputMw)

/-- A sensor's factory-corrected reading, in 1/16 °C, has reached 110 °C (R528). -/
def State.tooHot (s : State) (sensor : Nat) : Bool := s.dev.part.hasSensor sensor && 1760 ≤ Table.get 0 s.thermal.sensors sensor

/-- The comparators assert THERM_TRIP#, and the converters remove the rails. -/
def State.tripped (s : State) : State := { s with power := { s.power with tripLatched := true, converters := false } }

/-- THERMAL_TRIP (R528). -/
def execThermalTrip (sensor : Nat) (s : State) : Res :=
  guarded (s.power.supplyValid && s.tooHot sensor && !s.power.tripLatched) s s.tripped

/-! ### The clock (R496) -/

/-- What follows by itself as a clock passes: the host link trains while PERST# is high (R407, R500), STOR_PERST# is deasserted
(R513), READY comes once the wipe is complete and the enrolment records that have waited are processed (R493, R468), and a
sensor at 110 °C trips (R528). -/
def State.clocked (s : State) : State :=
  let s := if !s.power.perst && s.host.linkWidth = 0 then s.trained else s
  let s := if s.power.phase != .off && s.power.resetAt + storPerstTime ≤ s.now then { s with power := { s.power with storPerst := false } } else s
  let s := if s.power.phase = .running && !s.host.ready then ({ s with host := { s.host with ready := true } } : State).event 0 |>.processWaiting else s
  if !s.power.tripLatched && s.thermal.sensors.any (fun x => s.tooHot x.1) then s.tripped else s

/-- One MGT clock (R496): the timestamp increases by 10 modulo 2^64 while the PTD is out of reset. DESIGN CHOICE, log 9. -/
def tick (s : State) : State :=
  if s.power.supplyValid then
    ({ s with power := { s.power with timestamp := (s.power.timestamp + 10) % 2 ^ 64 } } : State).clocked
  else s

/-! ### The management port (R518, R519) -/

/-- MCTP_CONTROL: a Set Endpoint ID request assigns the endpoint ID, and a Get Endpoint ID request is answered with it; the
answer is as DSP0236 gives it, so its other bytes, and every byte of another answer, are free here (PRESUMED, log 5). -/
def State.mctp (s : State) (m : Bytes) : State :=
  let eid := fieldAt m 4 1
  let set := 5 ≤ m.length && bit (fieldAt m 1 1) 7 && fieldAt m 2 1 = 1 && fieldAt m 3 1 % 4 < 2 && 8 ≤ eid && eid < 255
  let get := 3 ≤ m.length && bit (fieldAt m 1 1) 7 && fieldAt m 2 1 = 2
  let n := if get then 2 else (Config.mctpFree s.draws 0).toNat
  let head := if get then toBytes 1 0 ++ toBytes 1 (fieldAt m 1 1 % 32) ++ toBytes 1 2 ++ toBytes 1 0 ++ toBytes 1 s.mctpEid else []
  let s' := { s with mctpEid := if set then eid else s.mctpEid, draws := s.draws + 1 }
  s'.send (.mgtReply (head ++ (List.range n).map fun k => Config.mctpFree s.draws (k + 1)))
def execMctpControl (msg : Bytes) (s : State) : Res := guarded s.portAnswers s (s.mctp msg)

/-- Threshold states of a PLDM reading, numbered by this model: 0 none passed, 1 upper warning, 2 upper critical, 3 upper
fatal, 4 lower critical, 5 not present. A threshold is passed at its value (DESIGN CHOICE, log 36). -/
def upperState (x : Int) (w c f : Option Int) : Nat :=
  let above (t : Option Int) : Bool := match t with
    | some v => v ≤ x
    | none => false
  if above f then 3 else if above c then 2 else if above w then 1 else 0

/-- A sensor of Table PLDM sensors: its value in the table's unit and resolution, and its state. -/
def State.pldm (s : State) (n : Nat) : Option (Int × Nat) :=
  let t := s.thermal
  if n = 1 then some ((t.inputMv : Int), if t.inputMv ≤ 380000 then 4 else upperState t.inputMv none (some 420000) none)
  else if n = 2 then
    some (((t.inputMw / 1000 : Nat) : Int), upperState ((t.inputMw / 1000 : Nat) : Int) (some ((s.dev.part.designMw / 1000 : Nat) : Int))
      (some ((s.dev.part.peakMw / 1000 : Nat) : Int)) none)
  else if 0x10 ≤ n && n < 0x14 then some ((nth 0 t.powerW (n - 0x10) : Nat), 0)
  else if 0x20 ≤ n && n < 0x24 then
    let x := signed (nth 0 t.mirrorTj (n - 0x20)) 16
    some (x, upperState x (some 1440) (some 1600) (some 1760))
  else if 0x30 ≤ n && n < 0x34 then
    let x : Int := (nth 0 t.mirrorT (n - 0x30) : Nat)
    some (x, upperState x (some 1) none none)
  else if 0x1000 ≤ n && n < 0x1200 then
    if s.dev.part.hasSensor (n - 0x1000) then some (s.reading (n - 0x1000), 0) else some (0, 5)
  else none

/-- PLDM_SENSOR_READ. A sensor that the table does not give is answered as DSP0248 gives it (PRESUMED, log 5). -/
def State.pldmRead (s : State) (n : Nat) : State :=
  match s.pldm n with
  | some r => s.send (.pldmReading r.1 r.2)
  | none => s.send (.mgtReply [0x80])
def execPldmSensorRead (sensor : Nat) (s : State) : Res := guarded s.portAnswers s (s.pldmRead sensor)

/-- PLDM_FRU_READ: part number, serial, silicon revision and firmware versions, one after the other (PRESUMED, log 5). -/
def State.fru (s : State) : Bytes :=
  ascii (match s.dev.part with
    | .lg100 => "PL-LG1-100"
    | .lg052 => "PL-LG1-052") ++ toBytes 8 s.dev.serial ++ toBytes 2 s.dev.siliconRev ++ toBytes 8 s.fw.control ++ toBytes 8 s.fw.sched
def execPldmFruRead (s : State) : Res := guarded s.portAnswers s (s.send (.mgtReply s.fru))

end Sys2Proof.Machine
end

