-- ==== Sys2Proof/Machine/Registers.lean ====
section
/-! DEFINITION. Registers.lean: what the registers of BAR0, of the package address space and of configuration space
read as, the reads with a side effect, and configuration requests (ch. Host interface R402-R413; ch. The module at a
glance R15; ch. Vector and update engines R152, R179; ch. Tensor descriptors R218; ch. Tile programs R220). -/

namespace Sys2Proof.Machine

/-! ### BAR0 (R409) -/

/-- GSTS.LINK_DEGRADED (R404). -/
def State.linkDegraded (s : State) : Bool :=
  s.host.linkWidth ≠ 0 && (s.host.linkWidth < 8 || s.host.linkRate < 16000)

/-- GSTS. -/
def State.gsts (s : State) : Nat :=
  b2n s.host.ready + b2n s.linkDegraded * 2 + b2n s.fw.paused * 2 ^ 2 + b2n s.degraded * 2 ^ 3 + s.host.lifecycle * 2 ^ 8 +
    b2n s.fw.staged.isSome * 2 ^ 12 + s.fw.activeXd * 2 ^ 16

/-- GCTL. -/
def State.gctl (s : State) : Nat := b2n s.host.evtIen + s.host.evtVector * 2 ^ 16

/-- QSTS.STATE. -/
def QpState.code : QpState → Nat
  | .disabled => 0
  | .unbound => 1
  | .opening => 2
  | .active => 3
  | .expired => 4
  | .closing => 5

/-- QSTS. -/
def Qp.stsWord (q : Qp) : Nat := q.st.code + b2n q.qerr * 2 ^ 3 + q.sqHead * 2 ^ 8 + q.principal * 2 ^ 32

/-- Register `k` of a queue pair. -/
def Qp.word (q : Qp) (k : Nat) : Nat :=
  match k with
  | 0 => q.sqBase
  | 1 => q.cqBase
  | 2 => q.cfgWord
  | _ => q.stsWord

/-- ERR_GLOBAL. -/
def State.errGlobal (s : State) : Nat :=
  let l := (List.range 100).map s.die
  b2n s.host.unrecovered + b2n (l.any (·.fenced)) * 2 + b2n (l.any (·.proposed)) * 2 ^ 2

/-- ERR_DIE. -/
def Die.errWord (d : Die) : Nat :=
  d.hostCorr + d.hostUnrec * 2 ^ 16 + b2n d.hostCorrOvf * 2 ^ 32 + b2n d.hostUnrecOvf * 2 ^ 33 + b2n d.fenced * 2 ^ 34 +
    b2n d.proposed * 2 ^ 35

/-- Sixty-four MSI-X pending bits. -/
def State.pbaWord (s : State) (k : Nat) : Nat :=
  (List.range 64).foldl (fun n i => n + b2n (s.host.pba.contains (64 * k + i)) * 2 ^ i) 0

/-- What a read of the aligned 64-bit register at an offset of BAR0 returns. Doorbells are write-only and read as 0, as
does every offset that no register map defines. -/
def State.readBar0 (s : State) (o : Nat) : Nat :=
  if o < 0x38 then fieldAt s.identity o 8
  else if o = 0x1000 then s.gctl
  else if o = 0x1008 then s.gsts
  else if o = 0x1010 then s.host.evt.toNat
  else if o = 0x1018 then s.now
  else if 0x8000 ≤ o && o < 0x1_0000 then (s.qp ((o - 0x8000) / 32)).word ((o - 0x8000) % 32 / 8)
  else if 0x1_0000 ≤ o && o < 0x1_8000 then
    (s.msixWord ((o - 0x1_0000) / 4)).toNat + (s.msixWord ((o - 0x1_0000) / 4 + 1)).toNat * 2 ^ 32
  else if 0x1_8000 ≤ o && o < 0x1_8100 then s.pbaWord ((o - 0x1_8000) / 8)
  else if o = 0x20_0000 then s.errGlobal
  else if 0x20_0100 ≤ o && o < 0x20_0420 then (s.die ((o - 0x20_0100) / 8)).errWord
  else if 0x30_0000 ≤ o && o < 0x30_0030 then fieldAt s.mirror (o - 0x30_0000) 8
  else 0

/-- ERR_DIE_READ (R405, R412): a read of a register, or of one half, clears the RC fields that it returns. -/
def execErrDieRead (read : ErrDieAccess) (s : State) : Res :=
  let ⟨die, offset, width⟩ := read
  let d := s.die die
  let ok := (offset = 0 && width = 8) || ((offset = 0 || offset = 4) && width = 4)
  let t := s.send (.readReply (slice (toBytes 8 (s.readBar0 (0x20_0100 + 8 * die))) offset width))
  guarded (s.hostReach && die < 100 && ok) s (if offset = 0 then t.setDie die { d with hostCorr := 0, hostUnrec := 0 } else t)

/-! ### Registers of the package address space (R15) -/

/-- The bits of a list of sticky flags. -/
def flagBits (l : List Bool) : Nat := l.zipIdx.foldl (fun n p => n + b2n p.1 * 2 ^ p.2) 0

/-- DESC_CTL (R218). -/
def Die.descCtl (d : Die) : Nat :=
  flagBits d.descOvf + d.mover0.length * 2 ^ 16 + d.mover1.length * 2 ^ 24 + d.lastAgent * 2 ^ 42 + d.lastCluster * 2 ^ 44 +
    d.lastFault * 2 ^ 48
/-- DROP_COUNTS. -/
def Die.dropCounts (d : Die) : Nat := nth 0 d.drops 0 + nth 0 d.drops 1 * 2 ^ 16 + nth 0 d.drops 2 * 2 ^ 32 + nth 0 d.drops 3 * 2 ^ 48
/-- SLOW_COUNTS. -/
def Die.slowCounts (d : Die) : Nat := d.legacy + d.narrow * 2 ^ 32
/-- UECSR (R179). -/
def Die.ueCsr (d : Die) : Nat := d.ueFlags + b2n d.skipOvf * 2 ^ 8 + b2n d.pubOvf * 2 ^ 9
/-- UESTAT. -/
def Die.ueStat (d : Die) : Nat := d.skipped + d.pubSat * 2 ^ 32

/-- VCSR (R152). -/
def Cluster.vcsr (c : Cluster) : Nat := c.flags + c.rm * 2 ^ 8
/-- SEQ_CTL (R220): START and ABORT are write-only. -/
def Cluster.seqCtl (c : Cluster) : Nat := c.entryReg * 2 ^ 32
def SeqState.code : SeqState → Nat
  | .idle => 0
  | .running => 1
  | .halted => 2
  | .faulted => 3
/-- SEQ_STATUS. -/
def Cluster.seqStatus (c : Cluster) : Nat :=
  c.st.code + b2n c.semOvf * 2 ^ 3 + c.outSignals * 2 ^ 24 + (c.drain0.length + c.drain1.length + c.drain2.length) * 2 ^ 37 +
    c.t0.queue.length * 2 ^ 39 + c.t1.queue.length * 2 ^ 41 + c.t2.queue.length * 2 ^ 43 + c.vec.length * 2 ^ 45 + c.pc * 2 ^ 48
/-- SEQ_FAULT. -/
def Cluster.seqFault (c : Cluster) : Nat := c.faultSlot + c.faultPc * 2 ^ 32 + c.faultUnit * 2 ^ 44 + c.faultStatus * 2 ^ 48

/-- A register of a cluster, by its offset from 0x70_0000 of the cluster window; none where none stands. -/
def State.clusterWord (s : State) (cl : ClusterId) (w : Nat) : Option Nat :=
  let c := s.cluster cl
  if w < 0x600 then some ((c.arr (w / 0x200)).chain (w % 0x200 / 8)).word
  else if w = 0x800 then some c.vcsr
  else if w = 0x1000 then some c.seqCtl
  else if w = 0x1008 then some c.seqStatus
  else if w = 0x1010 then some c.seqFault
  else if 0x1100 ≤ w && w < 0x1200 then some (c.sreg ((w - 0x1100) / 8)).toNat
  else if 0x2000 ≤ w && w < 0x2200 then some (Table.get 0 c.sems ((w - 0x2000) / 4) + Table.get 0 c.sems ((w - 0x2000) / 4 + 1) * 2 ^ 32)
  else if 0x3000 ≤ w && w < 0x4000 then some (bits (Table.get 0 c.dslots ((w - 0x3000) / 64)) (64 * ((w - 0x3000) % 64 / 8)) 64)
  else none

/-- What a read of the aligned 64-bit register at a package address returns; none where no register stands, as on a die
that the part does not carry: such a request completes with no data (R15). -/
def State.readPackage (s : State) (a : Nat) : Option Nat :=
  let die := (a - 0x10_0000_0000) / 0x4000_0000
  let o := (a - 0x10_0000_0000) % 0x4000_0000
  let d := s.die die
  if a < 0x10_0000_0000 || s.dev.part.cds ≤ die then none
  else if o = 0x1900_0000 then some d.ueCsr
  else if o = 0x1900_0008 then some d.ueStat
  else if o = 0x1900_1000 then some d.descCtl
  else if o = 0x1900_1008 then some d.dropCounts
  else if o = 0x1900_1010 then some d.slowCounts
  else if o < 0x800_0000 && 0x70_0000 ≤ o % 0x80_0000 then s.clusterWord (16 * die + o / 0x80_0000) (o % 0x80_0000 - 0x70_0000)
  else none

/-- Answers a fabric read of a register. -/
def State.fabricRead (s : State) (a : Nat) : State :=
  s.send (.readReply (match s.readPackage a with
    | some x => toBytes 8 x
    | none => []))

/-- An offset in the window of a compute die. -/
def dieReg (die o : Nat) : Nat := 0x10_0000_0000 + die * 0x4000_0000 + o

/-- A fabric read of an RC register of a compute die; on a die that the part does not carry there is nothing to clear. -/
def State.readClear (s : State) (die o : Nat) (clear : Die → Die) : State :=
  let t := s.fabricRead (dieReg die o)
  if die < s.dev.part.cds then t.setDie die (clear (s.die die)) else t

/-- DROP_COUNTS_READ (R11, R218): all the counters are cleared together. -/
def execDropCountsRead (die : Nat) (s : State) : Res :=
  guarded (die < 64 && s.diesRun) s (s.readClear die 0x1900_1008 fun d => { d with drops := [0, 0, 0, 0] })
/-- SLOW_COUNTS_READ. -/
def execSlowCountsRead (die : Nat) (s : State) : Res :=
  guarded (die < 64 && s.diesRun) s (s.readClear die 0x1900_1010 fun d => { d with legacy := 0, narrow := 0 })
/-- UESTAT_READ (R179). -/
def execUestatRead (die : Nat) (s : State) : Res :=
  guarded (die < 64 && s.diesRun) s (s.readClear die 0x1900_0008 fun d => { d with skipped := 0, pubSat := 0 })

/-- CLIP_STATISTIC_CLEAR (R77): a 16-byte write of zeros to a quantizer record's statistic. A range that the part does not
populate holds nothing to clear (R15), update-engine memory is out of reach (R170), and dies in reset take no write (R499). -/
def execClipStatisticClear (addr : Nat) (s : State) : Res :=
  guarded (s.diesRun && match regionAt s.dev.part (addr + 0x30) with
    | none => false
    | some (.ue _) => false
    | some _ => true) s (s.writeBytes (addr + 0x30) (zeros 16))

/-! ### Configuration space (R402, R403, R407) -/

def Part.deviceId : Part → Nat
  | .lg100 => 0x4C10
  | .lg052 => 0x4C11

/-- A capability structure: whether it is an extended one, its ID and its length in dwords. -/
structure Capability where
  ext : Bool
  id : Nat
  words : Nat
  deriving DecidableEq, Repr

/-- The capability structures of R403: PCI Power Management, PCI Express and MSI-X; Advanced Error Reporting, Device Serial
Number, Secondary PCI Express, Data Link Feature, Physical Layer 16.0, 32.0 and 64.0 GT/s, Lane Margining at the Receiver,
Device 3 and Flit Logging. Their IDs and lengths are those of the PCI Express Base Specification (PRESUMED, log 5). -/
def capabilities (ext : Bool) : List Capability :=
  if ext then
    [⟨true, 0x01, 18⟩, ⟨true, 0x03, 3⟩, ⟨true, 0x19, 11⟩, ⟨true, 0x25, 3⟩, ⟨true, 0x26, 12⟩, ⟨true, 0x2A, 12⟩, ⟨true, 0x31, 8⟩,
     ⟨true, 0x27, 18⟩, ⟨true, 0x2F, 4⟩, ⟨true, 0x32, 15⟩]
  else [⟨false, 0x01, 2⟩, ⟨false, 0x10, 15⟩, ⟨false, 0x11, 3⟩]

/-- Capability structures with their places in dwords: each stands behind the one before it and a free gap. -/
def placed (at_ gap : Nat) : List Capability → List (Nat × Capability)
  | [] => []
  | c :: l => (at_, c) :: placed (at_ + c.words + (Config.capGap gap).val) (gap + 1) l

/-- The capability structures below dword 64, and those of extended configuration space, the first of which stands there. -/
def capMap : List (Nat × Capability) := placed (16 + (Config.capGap 0).val) 1 (capabilities false) ++ placed 64 4 (capabilities true)

/-- The structure that holds a dword of configuration space, the dword's number in it, and the place of the next one. -/
def capAt : List (Nat × Capability) → Nat → Option (Capability × Nat × Nat)
  | [], _ => none
  | x :: l, k =>
    if x.1 ≤ k && k < x.1 + x.2.words then
      let next := match l with
        | y :: _ => if y.2.ext = x.2.ext then y.1 else 0
        | [] => 0
      some (x.2, k - x.1, next)
    else capAt l k

/-- Current Link Speed for a rate in MT/s. -/
def speedCode (rate : Nat) : Nat :=
  match rate with
  | 2500 => 1
  | 5000 => 2
  | 8000 => 3
  | 16000 => 4
  | 32000 => 5
  | 64000 => 6
  | _ => 0

/-- The bits of a dword of a capability structure that the manual fixes: their value, and which they are. -/
def State.capWord (s : State) (c : Capability) (j next : Nat) : Nat × Nat :=
  let all := 2 ^ 32 - 1
  if c.ext then
    if j = 0 then (c.id + 4 * next * 2 ^ 20, 0xFFF0_FFFF)
    else if c.id = 0x01 && j = 1 then (b2n (s.host.aer ≠ 0) * 2 ^ 20, 2 ^ 20)
    else if c.id = 0x03 && j = 1 then (s.dev.serial % 2 ^ 32, all)
    else if c.id = 0x03 then (s.dev.serial / 2 ^ 32 % 2 ^ 32, all)
    else if c.id = 0x2F && j = 1 then (6, 6)                               -- 14-bit tags, completer and requester
    else (0, 0)
  else
    match c.id, j with
    | 0x01, 0 => (c.id + 4 * next * 2 ^ 8, 0x0610_FFFF)                    -- no Immediate Readiness, no D1, no D2
    | 0x01, _ => (s.host.pmState, 0xB)                                     -- PowerState; No_Soft_Reset 0
    | 0x10, 0 => (c.id + 4 * next * 2 ^ 8 + 2 ^ 31, 0x80F0_FFFF)           -- an endpoint; FLIT mode
    | 0x10, 1 => (2, 0x1000_0007)                                          -- maximum payload 512 bytes; no FLR
    | 0x10, 2 => (s.host.devControl, 0xFFFF)
    | 0x10, 3 => (6 + 16 * 2 ^ 4, 0x3FF)                                   -- 64.0 GT/s, x16
    | 0x10, 4 => ((speedCode s.host.linkRate + s.host.linkWidth * 2 ^ 4) * 2 ^ 16, 0x3FF_C000)  -- no Device Readiness Status control
    | 0x10, 9 => (3 * 2 ^ 16, 0x8003_3000)                                 -- 10-bit tags; no TPH, no Function Readiness Status
    | 0x10, 11 => (0x7E, 0x8000_00FE)                                      -- 2.5 to 64.0 GT/s; no Device Readiness Status
    | 0x11, 0 => (c.id + 4 * next * 2 ^ 8 + (2047 + s.host.msixControl * 2 ^ 14) * 2 ^ 16, all)
    | 0x11, 1 => (0x1_0000, all)
    | 0x11, _ => (0x1_8000, all)
    | _, _ => (0, 0)

/-- A dword of which some bits are fixed; the others are free (log 5). -/
def State.partFree (s : State) (k : Nat) (x : Nat × Nat) : Nat :=
  (x.1 &&& x.2) ||| ((Config.cfgFree k s.draws).toNat &&& (2 ^ 32 - 1 - x.2))

/-- A dword of configuration space. What the manual leaves to the base specification is a free value (log 5). -/
def State.cfgDword (s : State) (k : Nat) : Nat :=
  if k = 0 then Config.vendorId.toNat + s.dev.part.deviceId * 2 ^ 16
  else if k = 1 then s.partFree 1 (s.host.cfgCommand + 2 ^ 20, 0x19_FFFF)   -- capabilities; no INTx, no Immediate Readiness
  else if k = 2 then s.dev.siliconRev % 256 + 0x12_0000 * 2 ^ 8
  else if k = 3 then s.partFree 3 (0, 0xFF_0000)                            -- one function
  else if k = 4 then s.host.bar0 % 2 ^ 32 + 4
  else if k = 5 then s.host.bar0 / 2 ^ 32
  else if k < 11 || k = 12 || k = 14 then 0
  else if k = 11 then s.partFree 11 (0, 0)
  else if k = 13 then 4 * (16 + (Config.capGap 0).val)
  else if k = 15 then s.partFree 15 (0, 0xFF00)                             -- no interrupt pin
  else match capAt capMap k with
    | some (c, j, next) => s.partFree k (s.capWord c j next)
    | none => 0

/-- The configuration-ready time has passed (R407). -/
def State.cfgReady (s : State) : Bool := !s.power.perst && s.power.perstAt + Config.cfgReadyTime.val ≤ s.now

/-- A write to a capability structure: PowerState, of which D0 and D3hot alone are taken and D3hot to D0 is a function reset
(R408), Device Control without Function Level Reset, MSI-X Message Control, and the Unsupported Request error bit.
`w` is the dword after the write, `v` the bits written. -/
def State.capWrite (s : State) (c : Capability) (j w v : Nat) : State :=
  if c.ext then (if c.id = 0x01 && j = 1 && bit v 20 then { s with host := { s.host with aer := 0 } } else s)
  else
    match c.id, j with
    | 0x01, 1 =>
      if w % 4 = 0 && s.host.pmState = 3 then s.functionReset
      else if w % 4 = 0 || w % 4 = 3 then { s with host := { s.host with pmState := w % 4 } }
      else s
    | 0x10, 2 => { s with host := { s.host with devControl := w % 2 ^ 15 } }
    | 0x11, 0 => s.msixControlWrite (w / 2 ^ 30)
    | _, _ => s

/-- A write to a dword of configuration space; the Command register takes the bits that the function implements. -/
def State.cfgWrite (s : State) (k w v : Nat) : State :=
  if k = 1 then { s with host := { s.host with cfgCommand := w &&& 0x0146 } }
  else if k = 4 then { s with host := { s.host with bar0 := s.host.bar0 / 2 ^ 32 * 2 ^ 32 + w / 2 ^ 25 * 2 ^ 25 } }
  else if k = 5 then { s with host := { s.host with bar0 := s.host.bar0 % 2 ^ 32 + w * 2 ^ 32 } }
  else if k < 16 then s
  else match capAt capMap k with
    | some (c, j, _) => s.capWrite c j w v
    | none => s

/-- CONFIGURATION_REQUEST: Request Retry Status until the configuration-ready time; then a read answers, and a write takes
effect. -/
def execConfigurationRequest (write : Bool) (offset size value : Nat) (s : State) : Res :=
  let k := offset / 4
  let sh := 8 * (offset % 4)
  let t := { s with draws := s.draws + 1 }
  let m := (2 ^ (8 * size) - 1) * 2 ^ sh
  let v := value * 2 ^ sh &&& m
  guarded (s.hostReach && 0 < size && offset % 4 + size ≤ 4 && offset < 4096) s
    (if !s.cfgReady then s.send .retryStatus
     else if write then (t.cfgWrite k (blend (s.cfgDword k) v m % 2 ^ 32) v).send (.configReply 0)
     else t.send (.configReply (bits (s.cfgDword k) sh (8 * size))))

end Sys2Proof.Machine
end

