-- ==== Sys2Proof/Machine/Dispatch.lean ====
section
/-! DEFINITION. Dispatch.lean: the meaning of each command, one arm per constructor. -/

namespace Sys2Proof.Machine

def exec (i : Instr) (s : State) : Host.Outcome State Fault Refusal :=
  match i with
  | .identify c => Sys2Proof.Machine.execIdentify c s
  | .openSession c => Sys2Proof.Machine.execOpenSession c s
  | .auth c => Sys2Proof.Machine.execAuth c s
  | .closeSession c => Sys2Proof.Machine.execCloseSession c s
  | .reset c => Sys2Proof.Machine.execReset c s
  | .attest c => Sys2Proof.Machine.execAttest c s
  | .modelLoad c => Sys2Proof.Machine.execModelLoad c s
  | .modelUnload c => Sys2Proof.Machine.execModelUnload c s
  | .rigStage c => Sys2Proof.Machine.execRigStage c s
  | .stageQuiesce c => Sys2Proof.Machine.execStageQuiesce c s
  | .stageRelease c => Sys2Proof.Machine.execStageRelease c s
  | .costumeRegister c => Sys2Proof.Machine.execCostumeRegister c s
  | .costumeRetire c => Sys2Proof.Machine.execCostumeRetire c s
  | .costumePrefetch c => Sys2Proof.Machine.execCostumePrefetch c s
  | .costumePin c => Sys2Proof.Machine.execCostumePin c s
  | .costumeAudit c => Sys2Proof.Machine.execCostumeAudit c s
  | .serveSubmit c => Sys2Proof.Machine.execServeSubmit c s
  | .serveCancel c => Sys2Proof.Machine.execServeCancel c s
  | .tuneOpen c => Sys2Proof.Machine.execTuneOpen c s
  | .tuneFeed c => Sys2Proof.Machine.execTuneFeed c s
  | .tuneCheckpoint c => Sys2Proof.Machine.execTuneCheckpoint c s
  | .tuneClose c => Sys2Proof.Machine.execTuneClose c s
  | .carouselJoin c => Sys2Proof.Machine.execCarouselJoin c s
  | .carouselLeave c => Sys2Proof.Machine.execCarouselLeave c s
  | .scrubPass c => Sys2Proof.Machine.execScrubPass c s
  | .errlogRead c => Sys2Proof.Machine.execErrlogRead c s
  | .telemetryRead c => Sys2Proof.Machine.execTelemetryRead c s
  | .fwStage c => Sys2Proof.Machine.execFwStage c s
  | .fwActivate c => Sys2Proof.Machine.execFwActivate c s
  | .lifecycleSet c => Sys2Proof.Machine.execLifecycleSet c s
  | .calibrationWrite c => Sys2Proof.Machine.execCalibrationWrite c s
  | .lifecycleTransition => Sys2Proof.Machine.execLifecycleTransition s
  | .sqTail qp value => Sys2Proof.Machine.execSqTail qp value s
  | .cqHead qp value => Sys2Proof.Machine.execCqHead qp value s
  | .qpEnable qp value => Sys2Proof.Machine.execQpEnable qp value s
  | .qpDisable qp value => Sys2Proof.Machine.execQpDisable qp value s
  | .qpDisabled qp => Sys2Proof.Machine.execQpDisabled qp s
  | .bar0UnsupportedRequest write addr size => Sys2Proof.Machine.execBar0UnsupportedRequest write addr size s
  | .registerWrite space offset width value => Sys2Proof.Machine.execRegisterWrite space offset width value s
  | .dropCountsRead die => Sys2Proof.Machine.execDropCountsRead die s
  | .slowCountsRead die => Sys2Proof.Machine.execSlowCountsRead die s
  | .uestatRead die => Sys2Proof.Machine.execUestatRead die s
  | .errDieRead read => Sys2Proof.Machine.execErrDieRead read s
  | .chainRecordWrite cl array records => Sys2Proof.Machine.execChainRecordWrite cl array records s
  | .clipStatisticClear addr => Sys2Proof.Machine.execClipStatisticClear addr s
  | .start cl entry => Sys2Proof.Machine.execStart cl entry s
  | .abort stage => Sys2Proof.Machine.execAbort stage s
  | .nop cl => Sys2Proof.Machine.execNop cl s
  | .halt cl => Sys2Proof.Machine.execHalt cl s
  | .wait cl tsem count => Sys2Proof.Machine.execWait cl tsem count s
  | .signal cl f => Sys2Proof.Machine.execSignal cl f s
  | .barrier cl scope id => Sys2Proof.Machine.execBarrier cl scope id s
  | .sli cl dst imm => Sys2Proof.Machine.execSli cl dst imm s
  | .sopAdd cl f => Sys2Proof.Machine.execSopAdd cl f s
  | .sopSub cl f => Sys2Proof.Machine.execSopSub cl f s
  | .sopMul cl f => Sys2Proof.Machine.execSopMul cl f s
  | .sopAnd cl f => Sys2Proof.Machine.execSopAnd cl f s
  | .sopOr cl f => Sys2Proof.Machine.execSopOr cl f s
  | .sopXor cl f => Sys2Proof.Machine.execSopXor cl f s
  | .sopShl cl f => Sys2Proof.Machine.execSopShl cl f s
  | .sopShr cl f => Sys2Proof.Machine.execSopShr cl f s
  | .sopSar cl f => Sys2Proof.Machine.execSopSar cl f s
  | .sopMin cl f => Sys2Proof.Machine.execSopMin cl f s
  | .sopMax cl f => Sys2Proof.Machine.execSopMax cl f s
  | .sopMinu cl f => Sys2Proof.Machine.execSopMinu cl f s
  | .sopMaxu cl f => Sys2Proof.Machine.execSopMaxu cl f s
  | .br cl cond a b target => Sys2Proof.Machine.execBr cl cond a b target s
  | .dload cl slot areg cnt => Sys2Proof.Machine.execDload cl slot areg cnt s
  | .mm iss f => Sys2Proof.Machine.execMm iss f s
  | .mmT iss f => Sys2Proof.Machine.execMmT iss f s
  | .mmW iss f => Sys2Proof.Machine.execMmW iss f s
  | .stationaryLoadComplete cl array => Sys2Proof.Machine.execStationaryLoadComplete cl array s
  | .chunkSumInsert cl array => Sys2Proof.Machine.execChunkSumInsert cl array s
  | .accOpen iss f => Sys2Proof.Machine.execAccOpen iss f s
  | .accMerge iss f => Sys2Proof.Machine.execAccMerge iss f s
  | .accRelease iss f => Sys2Proof.Machine.execAccRelease iss f s
  | .drain iss f => Sys2Proof.Machine.execDrain iss f s
  | .gdrain iss f => Sys2Proof.Machine.execGdrain iss f s
  | .movCopy iss f => Sys2Proof.Machine.execMovCopy iss f s
  | .movConvert iss f => Sys2Proof.Machine.execMovConvert iss f s
  | .movQuant iss f => Sys2Proof.Machine.execMovQuant iss f s
  | .movGather iss f => Sys2Proof.Machine.execMovGather iss f s
  | .vecAdd iss f => Sys2Proof.Machine.execVecAdd iss f s
  | .vecSub iss f => Sys2Proof.Machine.execVecSub iss f s
  | .vecMul iss f => Sys2Proof.Machine.execVecMul iss f s
  | .fma iss f => Sys2Proof.Machine.execFma iss f s
  | .vecMin iss f => Sys2Proof.Machine.execVecMin iss f s
  | .vecMax iss f => Sys2Proof.Machine.execVecMax iss f s
  | .neg iss f => Sys2Proof.Machine.execNeg iss f s
  | .abs iss f => Sys2Proof.Machine.execAbs iss f s
  | .cmpgt iss f => Sys2Proof.Machine.execCmpgt iss f s
  | .cmpge iss f => Sys2Proof.Machine.execCmpge iss f s
  | .cmpeq iss f => Sys2Proof.Machine.execCmpeq iss f s
  | .sel iss f => Sys2Proof.Machine.execSel iss f s
  | .cvtd iss f => Sys2Proof.Machine.execCvtd iss f s
  | .cvts iss f => Sys2Proof.Machine.execCvts iss f s
  | .div iss f => Sys2Proof.Machine.execDiv iss f s
  | .sqrt iss f => Sys2Proof.Machine.execSqrt iss f s
  | .exp2 iss f => Sys2Proof.Machine.execExp2 iss f s
  | .log2 iss f => Sys2Proof.Machine.execLog2 iss f s
  | .rcp iss f => Sys2Proof.Machine.execRcp iss f s
  | .rsq iss f => Sys2Proof.Machine.execRsq iss f s
  | .sig iss f => Sys2Proof.Machine.execSig iss f s
  | .tanh iss f => Sys2Proof.Machine.execTanh iss f s
  | .ld iss f => Sys2Proof.Machine.execLd iss f s
  | .st iss f => Sys2Proof.Machine.execSt iss f s
  | .stq iss f => Sys2Proof.Machine.execStq iss f s
  | .rowsum iss f => Sys2Proof.Machine.execRowsum iss f s
  | .rowmax iss f => Sys2Proof.Machine.execRowmax iss f s
  | .rowmin iss f => Sys2Proof.Machine.execRowmin iss f s
  | .act iss f => Sys2Proof.Machine.execAct iss f s
  | .actb iss f => Sys2Proof.Machine.execActb iss f s
  | .osum iss f => Sys2Proof.Machine.execOsum iss f s
  | .osumT iss f => Sys2Proof.Machine.execOsumT iss f s
  | .setrm iss f => Sys2Proof.Machine.execSetrm iss f s
  | .instructionCompletion cl unit => Sys2Proof.Machine.execInstructionCompletion cl unit s
  | .remoteSignalArrival index => Sys2Proof.Machine.execRemoteSignalArrival index s
  | .signalAckArrival index => Sys2Proof.Machine.execSignalAckArrival index s
  | .staleTransaction die stage epoch => Sys2Proof.Machine.execStaleTransaction die stage epoch s
  | .stepStart stage => Sys2Proof.Machine.execStepStart stage s
  | .stepComplete stage => Sys2Proof.Machine.execStepComplete stage s
  | .stepReplay stage => Sys2Proof.Machine.execStepReplay stage s
  | .cadencePeriodBoundary stage => Sys2Proof.Machine.execCadencePeriodBoundary stage s
  | .quiesceTimeout stage => Sys2Proof.Machine.execQuiesceTimeout stage s
  | .tuningPassStart job => Sys2Proof.Machine.execTuningPassStart job s
  | .tuningPassComplete job => Sys2Proof.Machine.execTuningPassComplete job s
  | .windowEnd job => Sys2Proof.Machine.execWindowEnd job s
  | .jobRotation job => Sys2Proof.Machine.execJobRotation job s
  | .tuningRollback job => Sys2Proof.Machine.execTuningRollback job s
  | .shardUpdate job die => Sys2Proof.Machine.execShardUpdate job die s
  | .publicationSwitch job => Sys2Proof.Machine.execPublicationSwitch job s
  | .costumeLoad stage handle => Sys2Proof.Machine.execCostumeLoad stage handle s
  | .costumeLoadComplete stage handle => Sys2Proof.Machine.execCostumeLoadComplete stage handle s
  | .costumeRelocation stage handle page => Sys2Proof.Machine.execCostumeRelocation stage handle page s
  | .pageScrubComplete stage handle => Sys2Proof.Machine.execPageScrubComplete stage handle s
  | .cacheEviction => Sys2Proof.Machine.execCacheEviction s
  | .retireComplete handle => Sys2Proof.Machine.execRetireComplete handle s
  | .blockFinal job block => Sys2Proof.Machine.execBlockFinal job block s
  | .deadlineExpiry job => Sys2Proof.Machine.execDeadlineExpiry job s
  | .holdExpiry job block => Sys2Proof.Machine.execHoldExpiry job block s
  | .verdictTimeout job => Sys2Proof.Machine.execVerdictTimeout job s
  | .paramTimeout job block => Sys2Proof.Machine.execParamTimeout job block s
  | .joinTimeout job => Sys2Proof.Machine.execJoinTimeout job s
  | .idle f => Sys2Proof.Machine.execIdle f s
  | .pipe f => Sys2Proof.Machine.execPipe f s
  | .openFrame f => Sys2Proof.Machine.execOpenFrame f s
  | .form f => Sys2Proof.Machine.execForm f s
  | .refuse f => Sys2Proof.Machine.execRefuse f s
  | .leave f => Sys2Proof.Machine.execLeave f s
  | .verdict f => Sys2Proof.Machine.execVerdict f s
  | .reduce f => Sys2Proof.Machine.execReduce f s
  | .param f => Sys2Proof.Machine.execParam f s
  | .reservedFrame f => Sys2Proof.Machine.execReservedFrame f s
  | .portDown port => Sys2Proof.Machine.execPortDown port s
  | .portTrained link => Sys2Proof.Machine.execPortTrained link s
  | .refetch addr => Sys2Proof.Machine.execRefetch addr s
  | .instructionReplay cl unit ok => Sys2Proof.Machine.execInstructionReplay cl unit ok s
  | .backgroundScrubRead stage addr found => Sys2Proof.Machine.execBackgroundScrubRead stage addr found s
  | .fenceProposal die cause => Sys2Proof.Machine.execFenceProposal die cause s
  | .dieFence die => Sys2Proof.Machine.execDieFence die s
  | .supplyValidAssert => Sys2Proof.Machine.execSupplyValidAssert s
  | .supplyValidDeassert => Sys2Proof.Machine.execSupplyValidDeassert s
  | .hardwareWipeComplete => Sys2Proof.Machine.execHardwareWipeComplete s
  | .defaultImageRig => Sys2Proof.Machine.execDefaultImageRig s
  | .modEnHigh lowForOneSecond => Sys2Proof.Machine.execModEnHigh lowForOneSecond s
  | .modEnLow => Sys2Proof.Machine.execModEnLow s
  | .perstAssert => Sys2Proof.Machine.execPerstAssert s
  | .perstDeassert => Sys2Proof.Machine.execPerstDeassert s
  | .functionReset kind => Sys2Proof.Machine.execFunctionReset kind s
  | .storageEnumeration controllers => Sys2Proof.Machine.execStorageEnumeration controllers s
  | .nvmeCompletion id status data => Sys2Proof.Machine.execNvmeCompletion id status data s
  | .nvmeTimeout id => Sys2Proof.Machine.execNvmeTimeout id s
  | .sessionExpiry qp => Sys2Proof.Machine.execSessionExpiry qp s
  | .fwSwitchTimeout => Sys2Proof.Machine.execFwSwitchTimeout s
  | .msixMessage source => Sys2Proof.Machine.execMsixMessage source s
  | .telemetryUpdate inputMv inputMw powerW => Sys2Proof.Machine.execTelemetryUpdate inputMv inputMw powerW s
  | .thermalSample readings => Sys2Proof.Machine.execThermalSample readings s
  | .throttleEvaluation inputMw => Sys2Proof.Machine.execThrottleEvaluation inputMw s
  | .thermalTrip sensor => Sys2Proof.Machine.execThermalTrip sensor s
  | .enrol rec => Sys2Proof.Machine.execEnrol rec s
  | .replace rec => Sys2Proof.Machine.execReplace rec s
  | .remove rec => Sys2Proof.Machine.execRemove rec s
  | .modelKey rec => Sys2Proof.Machine.execModelKey rec s
  | .mctpControl msg => Sys2Proof.Machine.execMctpControl msg s
  | .pldmSensorRead sensor => Sys2Proof.Machine.execPldmSensorRead sensor s
  | .pldmFruRead => Sys2Proof.Machine.execPldmFruRead s
  | .receiverLockChange port locked => Sys2Proof.Machine.execReceiverLockChange port locked s
  | .frameParityFailure port => Sys2Proof.Machine.execFrameParityFailure port s
  | .hostDmaReadFailure entry c => Sys2Proof.Machine.execHostDmaReadFailure entry c s
  | .nvmeControllerFatal controller => Sys2Proof.Machine.execNvmeControllerFatal controller s
  | .configurationRequest write offset size value => Sys2Proof.Machine.execConfigurationRequest write offset size value s
  | .rigComplete => Sys2Proof.Machine.execRigComplete s

end Sys2Proof.Machine
end

