-- ==== Sys2Proof/Safety.lean ====
section
/-! DEFINITION. Safety.lean: what counts as a safe run of the block, and the terms that claims use. -/

namespace Sys2Proof.Machine

/-- A step that stops for no reason of the model. -/
def State.goesOn (s : State) : Prop := ∃ t, step s = .next t

/-! ### Host commands -/

/-- The state once an entry has been consumed: the command is among those of its queue pair (R414). A command that fails
step 1 to 5 of R421 leaves no more than this before its completion. -/
def State.consumed (s : State) (c : HostCmd) : State :=
  let q := s.qp c.qp
  let op := fieldAt c.entry 0 1
  let id := s.host.nextId
  let cmd : Cmd := { id := id, cid := fieldAt c.entry 8 2, seq := fieldAt c.entry 4 4, opcode := op, rptr := fieldAt c.entry 0x18 8
                     rlen := fieldAt c.entry 0x20 4, keyed := keyedOp op && q.keys.isSome, posted := 0, waiting := none }
  ({ s with host := { s.host with nextId := id + 1, issuers := Table.set 0 s.host.issuers id q.principal } } : State).setQp c.qp
    { q with sqHead := (q.sqHead + 1) % (q.sqSize + 1), fetchFails := 0, cmds := q.cmds ++ [cmd] }

/-- The state once a command has passed step 5 of R421: a keyed one has advanced the expected SEQ. -/
def State.taken (s : State) (c : HostCmd) : State :=
  let q := s.qp c.qp
  let t := s.consumed c
  if keyedOp (fieldAt c.entry 0 1) then
    t.setQp c.qp { t.qp c.qp with expected := (q.expected + 1) % 2 ^ 32
                                  st := if fieldAt c.entry 4 4 = 0xFFFFFFFF then .expired else q.st }
  else t

/-- The call of a command that has just been taken. -/
def State.callOfEntry (s : State) (c : HostCmd) : Call :=
  let q := s.qp c.qp
  ⟨c.qp, s.host.nextId, fieldAt c.entry 8 2, fieldAt c.entry 4 4, fieldAt c.entry 0 1, q.principal, (q.plainParams c.entry).getD [],
    q.plainData c.qp c.entry c.data, fieldAt c.entry 0x18 8, fieldAt c.entry 0x20 4⟩

/-- A CLOSE_SESSION keeps its queue pair from taking further commands (R414). -/
def State.closing (s : State) (c : HostCmd) : State :=
  if fieldAt c.entry 0 1 = 4 then s.setQp c.qp { s.qp c.qp with closeTaken := true } else s

/-- Where a host command of the row `row` starts to take effect now: its call, and the state that its effect acts on.
Either it is taken and passes every check of R421, with no fence holding it back (R414), or it had been put aside with its
data read and may start. None where it does neither. -/
def State.starts (s : State) (c : HostCmd) (row : Nat) : Option (Call × State) :=
  let q := s.qp c.qp
  let op := fieldAt c.entry 0 1
  match s.heldFor c.qp c.entry with
  | some (h, cmd) =>
    if op = row && s.hostReach && !h.lost && (!h.fence || q.first h.id) then
      some (⟨c.qp, h.id, cmd.cid, cmd.seq, op, q.principal, h.params, h.data, cmd.rptr, cmd.rlen⟩,
        { s with host := { s.host with held := s.host.held.filter fun x => !(x.qp = c.qp && x.id = h.id) } })
    else none
  | none =>
    let plain := q.plainParams c.entry
    let t := (s.taken c).closing c
    if s.canTake c.qp && op = row && opcodes.contains op && (s.host.ready || op = 1) && q.admits op (fieldAt c.entry 4 4) plain = 0 &&
        (s.taken c).permits q op c.entry (plain.getD []) (fieldAt c.entry 0xC 4) (fieldAt c.entry 0x20 4) = 0 &&
        !(bit (fieldAt c.entry 1 1) 0 && !(t.qp c.qp).first s.host.nextId) then
      some (s.callOfEntry c, t)
    else none

/-- Where a host command starts, its row answers a next state that `p` relates to the call and to the state in which it
starts. -/
def State.answers (s : State) (i : Instr) (c : HostCmd) (op : Nat) (p : Call → State → State → Prop) : Prop :=
  ∀ k t, s.starts c op = some (k, t) → ∃ u, exec i s = .next u ∧ p k t u

/-- The host commands of Table Commands: row, opcode, and what the row does once it starts. -/
def hostRows (c : HostCmd) : List (Instr × Nat × Start) :=
  [(.identify c, 0x01, doIdentify), (.openSession c, 0x02, doOpenSession), (.auth c, 0x03, doAuth),
   (.closeSession c, 0x04, doCloseSession), (.reset c, 0x05, doReset), (.attest c, 0x08, doAttest),
   (.modelLoad c, 0x10, doModelLoad), (.modelUnload c, 0x11, doModelUnload), (.rigStage c, 0x18, doRigStage),
   (.stageQuiesce c, 0x19, doStageQuiesce), (.stageRelease c, 0x1A, doStageRelease),
   (.costumeRegister c, 0x20, doCostumeRegister), (.costumeRetire c, 0x21, doCostumeRetire),
   (.costumePrefetch c, 0x22, doCostumePrefetch), (.costumePin c, 0x23, doCostumePin), (.costumeAudit c, 0x24, doCostumeAudit),
   (.serveSubmit c, 0x30, doServeSubmit), (.serveCancel c, 0x31, doServeCancel), (.tuneOpen c, 0x38, doTuneOpen),
   (.tuneFeed c, 0x39, doTuneFeed), (.tuneCheckpoint c, 0x3A, doTuneCheckpoint), (.tuneClose c, 0x3B, doTuneClose),
   (.carouselJoin c, 0x40, doCarouselJoin), (.carouselLeave c, 0x41, doCarouselLeave), (.scrubPass c, 0x50, doScrubPass),
   (.errlogRead c, 0x51, doErrlogRead), (.telemetryRead c, 0x52, doTelemetryRead), (.fwStage c, 0x60, doFwStage),
   (.fwActivate c, 0x61, doFwActivate), (.lifecycleSet c, 0x70, doLifecycleSet), (.calibrationWrite c, 0x71, doCalibrationWrite)]

/-- A completion can be posted at once for a command: it is among those of its queue pair, which posts completions and has
room in its completion queue, and no earlier event of the command waits (R415, R416). -/
def State.canPost (s : State) (r : CmdRef) (c : Cmd) : Prop :=
  ((s.qp r.1).cmds.find? fun x => x.id = r.2) = some c ∧ c.waiting = none ∧ (s.qp r.1).cqFull = false ∧
    (s.qp r.1).st ≠ .closing ∧ (s.qp r.1).st ≠ .disabled ∧ (s.qp r.1).closeTaken = false

/-! ### Frames -/

/-- Every byte of the package address space reads as before. -/
def State.sameBytes (s t : State) : Prop := ∀ a, t.readByte a = s.readByte a

/-- Everything but one cluster is as before. -/
def State.onlyCluster (s t : State) (cl : ClusterId) : Prop :=
  { t with clusters := s.clusters } = s ∧ ∀ k, k ≠ cl → t.cluster k = s.cluster k

/-- The programmer's registers of a cluster are as before: scalar registers, descriptor slots, vector registers, masks
and rounding mode. -/
def Cluster.sameRegs (c d : Cluster) : Prop :=
  d.sregs = c.sregs ∧ d.dslots = c.dslots ∧ d.v = c.v ∧ d.m = c.m ∧ d.rm = c.rm

/-- A port asks for frames again: a NAK is due, or a frame that carries it has left since `s` (R328). -/
def State.asksAgain (s t : State) (p : Nat) : Prop :=
  (t.port p).nak = true ∨ ∃ g n, n < t.wire.length - s.wire.length ∧ t.wire[n]? = some (.frame p g) ∧ fNak g = true ∧
    fAck g = (s.port p).rxSeq % 2 ^ 16

/-- A unit instruction has issued: it is last in its unit's queue, PC has moved on, and neither the other units of its
cluster nor another cluster has changed. What an entry keeps of the accesses behind it (its PIPE frames, its counts, the
contents it changed and the dies it reached) is left open. -/
def State.issued (s t : State) (cl unit : Nat) (e : Issued) : Prop :=
  (∃ x, t.unitQueue cl unit = s.unitQueue cl unit ++ [x] ∧
    { x with frames := e.frames, counts := e.counts, quant := e.quant, undo := e.undo, dies := e.dies } = e) ∧ (t.cluster cl).pc = ((s.cluster cl).pc + 1) % 4096 ∧
    (∀ u, 1 ≤ u → u ≤ 9 → u ≠ unit → t.unitQueue cl u = s.unitQueue cl u) ∧ ∀ k, k ≠ cl → t.cluster k = s.cluster k

/-- A vector or mover instruction `c` has issued and waits for its unit: it holds what it took of registers and descriptors,
and nothing else has come of it. -/
def State.waits (s : State) (c : Instr) (i : Issue) (unit opcode : Nat) (w : Work) (slots : List Nat) : Prop :=
  ∃ t, exec c s = .next t ∧ s.sameBytes t ∧ (s.cluster i.cl).sameRegs (t.cluster i.cl) ∧
    s.issued t i.cl unit { s.entryFor i opcode false 0 with
      taken := some ⟨w, (s.cluster i.cl).sregs, (s.cluster i.cl).dslots⟩, slots := slots }

/-- The latest instruction of a unit's queue. -/
def State.newest (s : State) (cl unit : Nat) : Option Issued := (s.unitQueue cl unit).getLast?

/-- The chain records of an array of a cluster. -/
def State.chainOf (s : State) (cl : ClusterId) (t b : Nat) : Chain := ((s.cluster cl).arr t).chain b

end Sys2Proof.Machine
end

