-- ==== Sys2Proof/Certificates/Slice0/Obligations.lean ====
section
/-! DEFINITION. Obligations.lean: the statements for the provers. -/

open Sys2Proof Sys2Proof.Machine

/-! ### The block as a whole -/

/-- Tier 1. A step takes the command at the front of the queue and runs it on the state with the queue's rest. -/
def Obligations.StepRunsFront : Prop :=
  ∀ (s : State) (c : Instr) (rest : List Instr), s.pending = c :: rest → step s = exec c { s with pending := rest }

/-- Tier 1. With an empty queue one clock of the management domain passes: the module timestamp increases by 10 modulo
2^64 while the supply is valid, and nothing else changes (R496; that a step is one such clock, and that what follows
follows at a clock, are the model's choice, log 9) but for these. Once the wipe is complete the module becomes READY
with its event, and the enrolment records that have waited are processed (R493, R468). While PERST# is high the host
link trains (R407); STOR_PERST# is deasserted a time after the reset (R513; the time is the model's, log 35); a sensor
at 110 °C trips (R528). -/
def Obligations.IdleStepIsOneClock : Prop :=
  ∀ s : State, s.pending = [] →
    let n := (s.power.timestamp + 10) % 2 ^ 64
    let calm : Prop := (s.power.perst = true ∨ s.host.linkWidth ≠ 0) ∧ (s.power.phase = .running → s.host.ready = true) ∧
      (s.power.storPerst = false ∨ s.power.phase = .off ∨ n < s.power.resetAt + storPerstTime) ∧
      (s.power.tripLatched = true ∨ ∀ x ∈ s.thermal.sensors, s.tooHot x.1 = false)
    (s.power.supplyValid = false → step s = .next s) ∧
    (s.power.supplyValid = true → calm → step s = .next { s with power := { s.power with timestamp := n } }) ∧
    (s.power.supplyValid = true → ∃ t, step s = .next t ∧ t.power.timestamp = n ∧
      (s.power.phase = .running → t.host.ready = true ∧ (s.host.ready = false → t.records = [])) ∧
      (s.power.phase ≠ .off → s.power.resetAt + storPerstTime ≤ n → t.power.storPerst = false) ∧
      (s.power.tripLatched = false → (∃ x ∈ s.thermal.sensors, s.tooHot x.1 = true) →
        t.power.tripLatched = true ∧ t.power.converters = false) ∧
      (s.power.perst = false → s.host.linkWidth = 0 → t.host.linkWidth = hostLanes s.draws ∧ t.host.linkRate = hostRate s.draws))

/-- Tier 2. Every command of the block answers a next state in every state: the spec reports each of its errors by a
status, a log entry or a register, and none of them stops the module. -/
def Obligations.EveryCommandAnswers : Prop :=
∀ (i : Instr) (s : State), ∃ t, exec i s = .next t

/-- Tier 3. The 128-bit word of every well-formed instruction of a tile program decodes to that instruction: no field
of the instruction tables is dropped or misplaced between the two (R228, R232 to R234 and their tables). -/
def Obligations.TileWordsDecode : Prop :=
  ∀ (i : Instr) (cl : ClusterId) (w : Nat), i.wf = true → TileWord.ofInstr i = some (cl, w) →
    TileWord.toInstr cl w = some i ∧ w < 2 ^ 128

/-- Tier 1. What a reset leaves (R12, R392, R493, R496), and the operations in flight that each part takes (R22):
commands are not yet taken, every stage is UNRIGGED with epoch 0, every queue pair is DISABLED, every sequencer idle,
every chain FREE, memory reads as zeros in canonical form, and the module timestamp is 0. That scalar registers hold 0
is the model's choice (log 4), and so is that memory reads as zeros from the start of the wipe (log 38). -/
def Obligations.ResetLeaves : Prop :=
  State.reset.host.ready = false ∧ State.reset.power.timestamp = 0 ∧
    (∀ g, (State.reset.stage g).st = 0 ∧ (State.reset.stage g).epoch = 0 ∧ (State.reset.stage g).step = none) ∧
    (∀ n, (State.reset.qp n).st = .disabled ∧ (State.reset.qp n).en = false) ∧
    (∀ cl, (State.reset.cluster cl).st = .idle ∧ (∀ r, (State.reset.cluster cl).sreg r = 0) ∧
      ∀ t b, (State.reset.chainOf cl t b).st = 0) ∧
    Part.inFlight .lg100 = 24576 ∧ Part.inFlight .lg052 = 12288 ∧
    (∀ a, a < stagingBase → State.reset.readByte a = 0) ∧ Memory.wf State.reset.mem ∧ State.reset.pending = []

/-! ### Tile programs: control instructions -/

/-- Tier 2. SOP computes DST := A op B on 64-bit values modulo 2^64, for each of the thirteen functions, and goes on
with the next instruction; nothing else changes (R232; a write to s0 is discarded by `setSreg`, R219). The second
operand is register B, or IMM sign-extended where IMMSEL is 1. Scalar register s0 reads as 0 and discards writes;
every other one of a cluster's registers reads what was written last, and a write of one leaves the others (Table
Sequencer state; R219). -/
def Obligations.ScalarResults : Prop :=
  (∀ (cl : ClusterId) (f : SopF) (s : State),
      let c := s.cluster cl
      let a := c.sreg f.a
      let b := if f.immsel then (BitVec.ofNat 32 f.imm).signExtend 64 else c.sreg f.b
      let out : BitVec 64 → Res := fun v => .next (s.setCluster cl { c.setSreg f.dst v with pc := (c.pc + 1) % 4096 })
      let due : Nat → Prop := fun fn => s.canIssue cl (TileWord.sop fn f) = true
      (due 0 → exec (.sopAdd cl f) s = out (a + b)) ∧
      (due 1 → exec (.sopSub cl f) s = out (a - b)) ∧
      (due 2 → exec (.sopMul cl f) s = out (a * b)) ∧
      (due 3 → exec (.sopAnd cl f) s = out (a &&& b)) ∧
      (due 4 → exec (.sopOr cl f) s = out (a ||| b)) ∧
      (due 5 → exec (.sopXor cl f) s = out (a ^^^ b)) ∧
      (due 6 → exec (.sopShl cl f) s = out (a <<< (b.toNat % 64))) ∧
      (due 7 → exec (.sopShr cl f) s = out (a >>> (b.toNat % 64))) ∧
      (due 8 → exec (.sopSar cl f) s = out (BitVec.ofInt 64 (a.toInt / 2 ^ (b.toNat % 64)))) ∧
      (due 9 → exec (.sopMin cl f) s = out (if a.toInt ≤ b.toInt then a else b)) ∧
      (due 10 → exec (.sopMax cl f) s = out (if a.toInt ≤ b.toInt then b else a)) ∧
      (due 11 → exec (.sopMinu cl f) s = out (if a.toNat ≤ b.toNat then a else b)) ∧
      (due 12 → exec (.sopMaxu cl f) s = out (if a.toNat ≤ b.toNat then b else a))) ∧
  (∀ (c : Cluster) (r k : Nat) (v : BitVec 64),
      c.sreg 0 = 0 ∧ c.setSreg 0 v = c ∧ (r ≠ 0 → (c.setSreg r v).sreg r = v) ∧ (k ≠ r → (c.setSreg r v).sreg k = c.sreg k))

/-- Tier 2. BR sets PC to TARGET when COND holds for registers A and B, and otherwise goes on with the next
instruction (R233 and its table). -/
def Obligations.BranchResults : Prop :=
  ∀ (cl : ClusterId) (cond a b target : Nat) (s : State),
    let c := s.cluster cl
    let x := c.sreg a
    let y := c.sreg b
    let holds : Prop :=
      match cond with
      | 0 => True
      | 1 => x = y
      | 2 => x ≠ y
      | 3 => x.toInt < y.toInt
      | 4 => y.toInt ≤ x.toInt
      | 5 => x.toNat < y.toNat
      | _ => y.toNat ≤ x.toNat
    cond < 7 → s.canIssue cl (TileWord.br cond a b target) = true →
      (holds → exec (.br cl cond a b target) s = .next (s.setCluster cl { c with pc := target })) ∧
      (¬ holds → exec (.br cl cond a b target) s = .next (s.setCluster cl { c with pc := (c.pc + 1) % 4096 }))

/-- Tier 2. A SIGNAL waits for every instruction its sequencer issued before it, and while OUT_SIGNALS is 63 (R224). A
local one adds COUNT to its semaphore, which saturates with SEM_OVF; a remote one to a compute die of the issuing
stage leaves with the stage's epoch, and one to any other die is a step fault with DESC_TYPE (R247 to R249). A BARRIER
waits for every instruction its sequencer issued before it. Units scope then goes on. Die and stage scope arrive, and
go on once every participant has arrived at the same round (R250). NOP goes on; SLI loads its 64-bit immediate; WAIT
takes its count from the semaphore once the semaphore holds it, and waits until then; HALT ends the program at once
where nothing of the sequencer is in flight, and otherwise stops issuing until it can (R223, R228, R247). -/
def Obligations.SignalResults : Prop :=
  (∀ (cl : ClusterId) (f : SignalF) (s : State),
      let c := s.cluster cl
      let g := s.stageOfDie (cl / 16)
      let n := c.sem f.tsem + f.count
      let pc := (c.pc + 1) % 4096
      s.canIssue cl (TileWord.signal f) = true →
        (s.inFlight cl ≠ 0 ∨ 63 ≤ c.outSignals → exec (.signal cl f) s = .next s) ∧
        (s.inFlight cl = 0 → c.outSignals < 63 → f.remote = false → exec (.signal cl f) s = .next (s.setCluster cl
          { c.setSem f.tsem (min n (2 ^ 32 - 1)) with semOvf := c.semOvf || decide (2 ^ 32 ≤ n), pc := pc })) ∧
        (s.inFlight cl = 0 → f.remote = true → c.outSignals < 63 →
          (f.die < s.dev.part.cds ∧ f.die ∈ s.stageDies g →
            exec (.signal cl f) s = .next { s.setCluster cl { c with pc := pc, outSignals := c.outSignals + 1 } with
              signals := s.signals ++ [⟨cl, 16 * f.die + f.cluster, f.tsem, f.count, g, (s.stage g).epoch⟩] }) ∧
          (¬ (f.die < s.dev.part.cds ∧ f.die ∈ s.stageDies g) →
            exec (.signal cl f) s = .next ((s.setCluster cl { c with pc := pc }).stepFault cl 0x0104 0 c.pc 0 false)))) ∧
  (∀ (cl : ClusterId) (scope id : Nat) (s : State),
      let c := s.cluster cl
      let key := 8 * scope + id
      let round := Table.get 0 c.rounds key
      let there := s.setCluster cl { c with arrived := some (scope, id) }
      s.canIssue cl (TileWord.barrier scope id) = true →
        (s.inFlight cl ≠ 0 → exec (.barrier cl scope id) s = .next s) ∧
        (s.inFlight cl = 0 →
          (scope = 0 → exec (.barrier cl scope id) s = .next (s.setCluster cl { c with pc := (c.pc + 1) % 4096 })) ∧
          (scope ≠ 0 → (∀ k ∈ there.participants cl scope, there.reached k key round scope id = true) →
            exec (.barrier cl scope id) s =
              .next (there.setCluster cl { c with pc := (c.pc + 1) % 4096, arrived := none, rounds := Table.set 0 c.rounds key (round + 1) })) ∧
          (scope ≠ 0 → (∃ k ∈ there.participants cl scope, there.reached k key round scope id = false) →
            exec (.barrier cl scope id) s = .next there))) ∧
  (∀ (cl : ClusterId) (s : State),
      let c := s.cluster cl
      let pc := (c.pc + 1) % 4096
      (s.canIssue cl TileWord.nop = true → exec (.nop cl) s = .next (s.setCluster cl { c with pc := pc })) ∧
      (∀ dst imm, s.canIssue cl (TileWord.sli dst imm) = true →
        exec (.sli cl dst imm) s = .next (s.setCluster cl { c.setSreg dst (BitVec.ofNat 64 imm) with pc := pc })) ∧
      (∀ tsem n, s.canIssue cl (TileWord.wait tsem n) = true →
        (n ≤ c.sem tsem → exec (.wait cl tsem n) s = .next (s.setCluster cl { c.setSem tsem (c.sem tsem - n) with pc := pc })) ∧
        (c.sem tsem < n → exec (.wait cl tsem n) s = .next s)) ∧
      (s.canIssue cl TileWord.halt = true →
        (s.inFlight cl = 0 ∧ c.outSignals = 0 →
          exec (.halt cl) s = .next (s.setCluster cl { c with pc := pc, halting := false, st := .halted })) ∧
        (s.inFlight cl ≠ 0 ∨ c.outSignals ≠ 0 →
          exec (.halt cl) s = .next (s.setCluster cl { c with pc := pc, halting := true }))))

/-- Tier 2. DLOAD copies CNT + 1 consecutive 64-byte records into slots SLOT to SLOT + CNT and leaves the others; it
fails with DESC_ALIGN past d63 or off a multiple of 64, with DESC_TYPE outside the sequencer's own operand memory and
the memory-die space of its stage, and with PARITY_UNRECOVERED on a poisoned line, writing no slot. It is never in
flight (R234, R472). Where writes of other units' instructions have not completed, what is read of the lines they
changed is, line by line, what it was before them or after them, and no such write is lost (R51; log 39). -/
def Obligations.DescriptorLoad : Prop :=
  ∀ (cl : ClusterId) (slot areg cnt : Nat) (s : State),
    let c := s.cluster cl
    let a := (c.sreg areg).toNat
    let n := cnt + 1
    let failed : Nat → Bool → Res := fun st parity =>
      .next ((s.setCluster cl { c with pc := (c.pc + 1) % 4096 }).stepFault cl st 0 c.pc 0 parity)
    (∀ (unit : Nat) (f : State → State), s.unreleased cl unit = [] → s.racing cl unit f = f s) ∧
    (∀ (unit : Nat) (f : State → State), s.unreleased cl unit ≠ [] → ∃ r : State,
      r = { s with mem := r.mem, stg := r.stg, draws := r.draws } ∧
      (∀ b, (∀ x ∈ s.unreleased cl unit, x.2.1 ≠ b) → r.readByte b = s.readByte b) ∧
      (∀ b, r.readByte b = s.readByte b ∨ ∃ x ∈ s.unreleased cl unit, x.2.1 = b ∧ x.2.2 = r.readByte b) ∧
      { s.racing cl unit f with mem := (f r).mem, stg := (f r).stg } = f r ∧
      ∀ b, (s.racing cl unit f).readByte b = if (f r).readByte b = r.readByte b then s.readByte b else (f r).readByte b) ∧
    (s.canIssue cl (TileWord.dload slot areg cnt) = true → s.unreleased cl 0 = [] →
      (64 < slot + n ∨ a % 64 ≠ 0 → exec (.dload cl slot areg cnt) s = failed 0x0101 false) ∧
      (slot + n ≤ 64 → a % 64 = 0 →
        (s.dloadOk cl a n = false → exec (.dload cl slot areg cnt) s = failed 0x0104 false) ∧
        (s.dloadOk cl a n = true → s.poisoned a (64 * n) = true → exec (.dload cl slot areg cnt) s = failed 0x0702 true) ∧
        (s.dloadOk cl a n = true → s.poisoned a (64 * n) = false →
          ∃ t, exec (.dload cl slot areg cnt) s = .next t ∧ s.onlyCluster t cl ∧ t.inFlight cl = s.inFlight cl ∧
            t.cluster cl = { c with pc := (c.pc + 1) % 4096, dslots := (t.cluster cl).dslots } ∧
            ∀ k, (t.cluster cl).dslot k =
              if slot ≤ k ∧ k < slot + n then s.readLE (a + 64 * (k - slot)) 64 else c.dslot k)))

/-- Tier 2. What the scalar, branch and semaphore instructions leave unchanged when they answer a next state:
everything but their own cluster, and in that cluster everything but PC, the scalar registers and the semaphores; SOP
and SLI leave every scalar register other than DST, NOP, BR and WAIT leave them all, and only WAIT changes a
semaphore, its own. -/
def Obligations.ScalarFrame : Prop :=
  ∀ (cl : ClusterId) (s t : State),
    let frame : Prop := s.onlyCluster t cl ∧ s.sameBytes t ∧
      t.cluster cl = { s.cluster cl with pc := (t.cluster cl).pc, sregs := (t.cluster cl).sregs, sems := (t.cluster cl).sems }
    let keeps : Nat → Prop := fun r => (t.cluster cl).sreg r = (s.cluster cl).sreg r
    (∀ (i : Instr) (f : SopF), i ∈ [Instr.sopAdd cl f, .sopSub cl f, .sopMul cl f, .sopAnd cl f, .sopOr cl f, .sopXor cl f,
        .sopShl cl f, .sopShr cl f, .sopSar cl f, .sopMin cl f, .sopMax cl f, .sopMinu cl f, .sopMaxu cl f] →
      exec i s = .next t → frame ∧ (∀ r, r ≠ f.dst → keeps r) ∧ (t.cluster cl).sems = (s.cluster cl).sems) ∧
    (∀ dst imm, exec (.sli cl dst imm) s = .next t →
      frame ∧ (∀ r, r ≠ dst → keeps r) ∧ (t.cluster cl).sems = (s.cluster cl).sems) ∧
    (∀ i, (i = .nop cl ∨ ∃ cond a b target, i = .br cl cond a b target) → exec i s = .next t →
      frame ∧ (∀ r, keeps r) ∧ (t.cluster cl).sems = (s.cluster cl).sems) ∧
    (∀ tsem n, exec (.wait cl tsem n) s = .next t →
      frame ∧ (∀ r, keeps r) ∧ ∀ k, k ≠ tsem → (t.cluster cl).sem k = (s.cluster cl).sem k)

/-! ### Completion, faults, signals, START and ABORT -/

/-- Tier 2. INSTRUCTION_COMPLETION takes the oldest finished instruction of the cluster off its unit; its completion
signal adds 1 to its semaphore, the vector flags it raised are set (R154), a status other than OK and PARITY_REPLAYED
is a step fault, and a HALT that waited for it completes. A vector or mover instruction that waited for its unit
begins, with the registers and descriptors that it took at issue (R225), once it is the first there and nothing in
flight keeps it waiting (R144); when in this it begins is the model's choice (log 18). An instruction whose PIPE
frames are not yet in the retransmit buffers is not finished (R373). Where none is finished nothing happens (R223,
R227). The first step fault of a sequencer is recorded in SEQ_FAULT and sets FAULTED, and a later one leaves that
record; the first one of a stage's step is the cause of its abort (R251). INSTRUCTION_COMPLETION answers a next state
in each of these cases. -/
def Obligations.InstructionCompletes : Prop :=
  (∀ (cl : ClusterId) (unit : Nat) (s : State),
      let s0 := s.beginNext cl unit
      let mine : Issued → Bool := fun e => e.cluster == cl && e.frames.all fun p => p.2 ≤ (s0.port p.1).pipes
      (∀ e q, takeDone mine (s0.unitQueue cl unit) = some (e, q) →
        let a0 := s0.setUnit cl unit q
        let a := a0.setCluster cl { a0.cluster cl with flags := (a0.cluster cl).flags ||| e.flags }
        let b := if e.sigen then a.setCluster cl ((a.cluster cl).addSem e.sem 1) else a
        let d := if e.status = 0 ∨ e.status = 0x0701 then b else b.stepFault cl e.status unit e.pc e.base e.parity
        exec (.instructionCompletion cl unit) s = .next ((d.settleHalt cl).beginNext cl unit)) ∧
      (takeDone mine (s0.unitQueue cl unit) = none → exec (.instructionCompletion cl unit) s = .next s0)) ∧
  (∀ (cl : ClusterId) (unit : Nat) (s : State),
      ((∀ e rest, s.unitQueue cl unit = e :: rest → e.taken = none) → s.beginNext cl unit = s) ∧
      (∀ e rest k, s.unitQueue cl unit = e :: rest → e.taken = some k →
        let c := s.cluster e.cluster
        let u := (s.setCluster e.cluster { c with sregs := k.sregs, dslots := k.dslots, pc := e.pc }).setUnit e.cluster unit []
        let free : Bool := match k.work with
          | .vec fn i f => (s.setCluster e.cluster { c with sregs := k.sregs, dslots := k.dslots }).vecMay fn i f
          | .mov kind i f => (s.setCluster e.cluster { c with sregs := k.sregs, dslots := k.dslots }).movMay kind i f
        (free = false → s.beginNext cl unit = s) ∧
        (free = true →
          let r := u.startWork k.work
          let q := r.setCluster e.cluster { r.cluster e.cluster with sregs := c.sregs, dslots := c.dslots, pc := c.pc }
          let t := s.beginNext cl unit
          t = q.setUnit e.cluster unit (q.unitQueue e.cluster unit ++ rest) ∧
          (t.cluster e.cluster).sregs = c.sregs ∧ (t.cluster e.cluster).dslots = c.dslots ∧ (t.cluster e.cluster).pc = c.pc))) ∧
  (∀ (s : State) (cl status unit pc slot : Nat) (parity : Bool),
      let c := s.cluster cl
      let g := s.stageOfDie (cl / 16)
      let t := s.stepFault cl status unit pc slot parity
      (c.st = .running → c.faultStatus = 0 →
        t.cluster cl = { c with st := .faulted, faultStatus := status, faultUnit := unit, faultPc := pc, faultSlot := slot }) ∧
      (c.faultStatus ≠ 0 → t.cluster cl = c) ∧ (∀ k, k ≠ cl → t.cluster k = s.cluster k) ∧ s.sameBytes t ∧
      (∀ p, (s.stage g).step = some p →
        (t.stage g).step = some (if p.cause = 0 then { p with cause := status, parity := parity } else p)))

/-- Tier 2. A remote signal adds its count at its target and is acknowledged; the acknowledgement lowers OUT_SIGNALS
of the sender. One whose stage has a newer epoch is discarded and counted in EPOCH_STALE of the die it reached (R249,
R393). A transaction of an old epoch is discarded: EPOCH_STALE of the die that received it increases by 1, and nothing
but that die's counters and the error event changes (R393, R482). REMOTE_SIGNAL_ARRIVAL, SIGNAL_ACK_ARRIVAL and
STALE_TRANSACTION answer a next state in each of these cases. -/
def Obligations.RemoteSignals : Prop :=
  (∀ (k : Nat) (g : Signal) (s : State),
      (s.signals[k]? = some g →
        let a := { s with signals := s.signals.eraseIdx k }
        (g.epoch = (s.stage g.stage).epoch → exec (.remoteSignalArrival k) s =
          .next { a.setCluster g.dst ((s.cluster g.dst).addSem g.sem g.count) with acks := s.acks ++ [g] }) ∧
        (g.epoch ≠ (s.stage g.stage).epoch → exec (.remoteSignalArrival k) s = .next (a.addStale (g.dst / 16)))) ∧
      (s.acks[k]? = some g →
        let a := { s with acks := s.acks.eraseIdx k }
        let c := s.cluster g.src
        (g.epoch = (s.stage g.stage).epoch → exec (.signalAckArrival k) s =
          .next ((a.setCluster g.src { c with outSignals := c.outSignals - 1 }).settleHalt g.src)) ∧
        (g.epoch ≠ (s.stage g.stage).epoch → exec (.signalAckArrival k) s = .next (a.addStale (g.src / 16))))) ∧
  (∀ (die stage epoch : Nat) (s : State),
      s.dev.part.hasDie die = true → stage < 16 → epoch ≠ (s.stage stage).epoch →
        ∃ t, exec (.staleTransaction die stage epoch) s = .next t ∧
          (t.die die).epochStale = min ((s.die die).epochStale + 1) (2 ^ 32 - 1) ∧ (∀ d, d ≠ die → t.die d = s.die d) ∧
          s.sameBytes t ∧ (∀ cl, t.cluster cl = s.cluster cl) ∧ (∀ g, t.stage g = s.stage g))

/-- Tier 2. START on a sequencer of a stage: PC from the entry table, s11 to s31 and every semaphore 0, s0 0, no
stationary tile active, descriptor slots and instruction memory as they were; s5 to s8 take the entry's arguments, s9
the sequencer's place in the stage and s10 the number of its dies (R221). ABORT of a step whose first fault allows
another attempt (R251, R477): no sequencer of the stage runs, nothing they had issued is in flight, every chain of
their arrays is FREE, the other clusters are as before, and so is memory but for the rows that array instructions that
had begun have yet to add to the slots of their chains, for these run to their end; the step waits for its replay.
START and ABORT answer a next state in each of these cases. -/
def Obligations.StartResult : Prop :=
  (∀ (cl : ClusterId) (entry : Nat) (s : State),
      let g := s.stageOfDie (cl / 16)
      let c := s.cluster cl
      g < 16 → c.st ≠ .running →
        ∃ t, exec (.start cl entry) s = .next t ∧ s.onlyCluster t cl ∧
          let d := t.cluster cl
          d.st = .running ∧ d.pc = nth 0 c.entries entry ∧ d.entryReg = entry ∧ d.sems = [] ∧
            (∀ r, 11 ≤ r → d.sreg r = 0) ∧ d.sreg 0 = 0 ∧ d.dslots = c.dslots ∧ d.imem = c.imem ∧ d.v = c.v ∧ d.m = c.m ∧
            (∀ k, k < 4 → d.sreg (5 + k) = BitVec.ofNat 64 (nth 0 (nth [] c.args entry) k)) ∧
            d.sreg 9 = BitVec.ofNat 64 (16 * rankOf (s.stageDies g) (cl / 16) + cl % 16) ∧
            d.sreg 10 = BitVec.ofNat 64 (s.stageDies g).length ∧
            (∀ a, (d.arr a).tileD = none ∧ (d.arr a).tileW = none ∧ (d.arr a).chains = (c.arr a).chains)) ∧
  (∀ (stage : Nat) (p : Machine.Step) (s : State),
      (s.stage stage).step = some p → p.aborted = false → p.cause ≠ 0 → (s.stage stage).st ≠ 3 → p.replayable = true →
        ∃ t, exec (.abort stage) s = .next t ∧ (t.stage stage).step = some { p with aborted := true } ∧
          (∀ a, (∀ cl ∈ s.stageClusters stage, ∀ u, u < 3 → ∀ e ∈ ((s.cluster cl).arr u).queue, e.busy = true → 0 < e.row →
              ∀ slot ∈ (s.chainOf cl u e.base).slots e.base, ∀ row, e.row ≤ row → row < e.rows.length →
                a < slotWord cl u slot row 0 ∨ slotWord cl u slot row 0 + 0x200 ≤ a) →
            t.readByte a = s.readByte a) ∧
          (∀ cl, cl ∈ s.stageClusters stage →
            (t.cluster cl).st ≠ .running ∧ t.inFlight cl = 0 ∧ (∀ a b, (t.chainOf cl a b) = Chain.free) ∧
            (s.cluster cl).sameRegs (t.cluster cl)) ∧
          (∀ cl, cl ∉ s.stageClusters stage →
            (∀ d ∈ s.stageDies stage, ∀ e ∈ (s.die d).mover0 ++ (s.die d).mover1, e.cluster ≠ cl) → t.cluster cl = s.cluster cl))

/-! ### Tile arrays and accumulator memory -/

/-- Tier 2. MM, MM.T and MM.W that fail their checks join the queue of their array with the check's status and change
neither a chain nor a stationary register nor memory. Where the checks pass and every header read is sound, the
instruction holds the chunk sums of 16 (VM1 + 1) vectors by 128 columns (R102, R110, R111), and the stationary tile it
named is the active one (R97); a header with E = 255 or a poisoned line fails it, with no chunk sum (R203), and so
does a skewed tag, which poisons its chain when the instruction's turn comes (R204). That the work is done at issue is
the model's choice (log 18); no write of another unit that has not completed is under way (R51). In a unified stage
that runs a tuning pass, MM.T and MM.W wait until the forward work that has issued is complete on every array (R119,
log 73). -/
def Obligations.ArrayProducts : Prop :=
  ∀ (c : Instr) (op orient : Nat) (i : Issue) (f : MmF) (s : State),
    (c, op, orient) ∈ [(Instr.mm i f, 0x10, 0), (.mmT i f, 0x11, 1), (.mmW i f, 0x12, 2)] → c.wf = true →
    s.canIssue i.cl (TileWord.mm op i f) = true → s.room i.cl (f.array + 1) = true → s.unreleased i.cl (f.array + 1) = [] →
      (op ≠ 0x10 → s.forwardOver i.cl = false → exec c s = .next s) ∧ (op = 0x10 ∨ s.forwardOver i.cl = true →
      let k := s.cluster i.cl
      let a := k.arr f.array
      let w := f.stream && s.split i.cl && f.array ≠ 0
      let xd := k.desc f.xdesc
      let vb := f.vm1 + 1
      let n := f.dm1 + 1
      let x := s.readBricks xd (if orient = 2 then 2 else 1) (originOf k f.xreg xd.rank) (if orient = 2 then n else vb)
        (if orient = 2 then vb else n)
      let load := if f.keep then 0 else (s.loadTile orient i f).1
      let bad := if load = 0x0702 ∨ x.1 = 0x0702 then 0x0702 else if load = 0x0204 ∨ x.1 = 0x0204 then 0x0204
        else if load = 0x0201 ∨ x.1 = 0x0201 then 0x0201 else 0
      let fails : State → Nat → Prop := fun t st =>
        s.issued t i.cl (f.array + 1) { s.entryFor i op f.stream f.chain with status := st, parity := st = 0x0702 }
      (s.mmCheck orient i f ≠ 0 → ∃ t, exec c s = .next t ∧ fails t (s.mmCheck orient i f) ∧ s.sameBytes t ∧
        ((t.cluster i.cl).arr f.array).chains = a.chains ∧ ((t.cluster i.cl).arr f.array).tile w = a.tile w) ∧
      (s.mmCheck orient i f = 0 → bad ≠ 0 → ∃ t, exec c s = .next t ∧ s.sameBytes t ∧
        ((t.cluster i.cl).arr f.array).chains = a.chains ∧
        (((t.cluster i.cl).arr f.array).tile w = if f.keep then a.tile w else if load = 0 then some (s.loadTile orient i f).2.1 else none) ∧
        (bad ≠ 0x0201 → fails t bad) ∧
        (bad = 0x0201 → s.issued t i.cl (f.array + 1) { s.entryFor i op w f.chain with
          poison := bad, newRun := !f.keep, waitsTile := !f.keep, carries := true })) ∧
      (s.mmCheck orient i f = 0 → bad = 0 → ∀ tile, (if f.keep then a.tile w else some (s.loadTile orient i f).2.1) = some tile →
        ∃ t, exec c s = .next t ∧ s.sameBytes t ∧ ((t.cluster i.cl).arr f.array).tile w = some tile ∧
          ((t.cluster i.cl).arr f.array).chains = a.chains ∧
          s.issued t i.cl (f.array + 1) { s.entryFor i op w f.chain with
            rows := products orient xd.ty tile.fmt (16 * vb) n (a.chain f.chain).pair x.2.1 tile.bricks
            newRun := !f.keep, waitsTile := !f.keep, carries := true }))

/-- Tier 2. What issuing MM, MM.T, MM.W, ACC.OPEN and ACC.RELEASE leaves unchanged: all of memory, every other
cluster, and of its own cluster everything but PC and the array's chain records, stationary registers and queue. -/
def Obligations.ArrayFrame : Prop :=
  ∀ (i : Issue) (s t : State),
    let frame : Nat → Prop := fun array => s.sameBytes t ∧ (∀ k, k ≠ i.cl → t.cluster k = s.cluster k) ∧
      (∀ u, u < 3 → u ≠ array → (t.cluster i.cl).arr u = (s.cluster i.cl).arr u) ∧
      (s.cluster i.cl).sameRegs (t.cluster i.cl) ∧ (t.cluster i.cl).sems = (s.cluster i.cl).sems ∧
      (t.cluster i.cl).flags = (s.cluster i.cl).flags ∧ (t.cluster i.cl).vec = (s.cluster i.cl).vec ∧
      (∀ u, (t.cluster i.cl).drain u = (s.cluster i.cl).drain u)
    (∀ f c, c ∈ [Instr.mm i f, .mmT i f, .mmW i f] → c.wf = true → exec c s = .next t → frame f.array ∧
      ∀ b, b ≠ f.chain → t.chainOf i.cl f.array b = s.chainOf i.cl f.array b) ∧
    (∀ f c, c ∈ [Instr.accOpen i f, .accRelease i f] → c.wf = true → exec c s = .next t → frame f.array ∧
      ((t.cluster i.cl).arr f.array).tileD = ((s.cluster i.cl).arr f.array).tileD ∧
      ((t.cluster i.cl).arr f.array).tileW = ((s.cluster i.cl).arr f.array).tileW ∧
      ∀ b, b ≠ f.base → t.chainOf i.cl f.array b = s.chainOf i.cl f.array b)

/-- Tier 2. A chunk sum placed in an OPEN chain comes to rest at the lowest level m that is not occupied, after the
additions of the occupied levels below it, the earlier operand on the left; the last row of an instruction updates OCC
and adds 1 to COUNT (R129). A chain that is not OPEN, or whose ROWS differ, or that has no free level, fails the
instruction instead and writes no byte, and so does a poisoned line under the levels it would add (R129, R146, R472);
an instruction that has met a skewed tag poisons its chain and ends (R204), and one whose chain record lies in a
poisoned line of the chain table fails with PARITY_UNRECOVERED and leaves the chain (R472, log 41). That COUNT wraps
at 8 bits is the model's reading (log 14). STATIONARY_LOAD_COMPLETE: the oldest instruction of an array that waits for
its stationary tile waits no longer, and nothing else changes (R97). STATIONARY_LOAD_COMPLETE and CHUNK_SUM_INSERT
answer a next state in each of these cases. -/
def Obligations.ChunkSumInsertion : Prop :=
  (∀ (cl : ClusterId) (array k : Nat) (e : Issued) (s : State),
      let a := (s.cluster cl).arr array
      let r := a.chain e.base
      let v := e.rows.length / 16 - 1
      let vals := nth ([], []) e.rows e.row
      array < 3 → a.running (s.split cl && array ≠ 0) = some k → a.queue[k]? = some e → e.row < 128 →
        let fails : Nat → Chain → Prop := fun st r' => ∃ t, exec (.chunkSumInsert cl array) s = .next t ∧ s.sameBytes t ∧
          t.chainOf cl array e.base = r' ∧
          ∃ x, (((t.cluster cl).arr array).queue)[k]? = some x ∧ x.status = st ∧ x.row = e.row
        (e.poison ≠ 0 → fails e.poison (if r.st = 1 then { r with st := 2, cause := e.poison } else r)) ∧
        (e.poison = 0 → s.poisoned (chainAddr cl array e.base) 8 = true → fails 0x0702 r) ∧
        (e.poison = 0 → s.poisoned (chainAddr cl array e.base) 8 = false → e.row < e.rows.length →
        (r.st = 2 → fails 0x0206 r) ∧
        (r.st = 0 → fails 0x0203 r) ∧
        (r.st = 1 → r.rowsSet = true → r.rows ≠ v → fails 0x0203 { r with st := 2, cause := 0x0203 }) ∧
        (r.st = 1 → (r.rowsSet = true → r.rows = v) → restLevel r.occ r.depth 9 0 = none →
          fails 0x0203 { r with st := 2, cause := 0x0203 }) ∧
        (∀ m, r.st = 1 → (r.rowsSet = true → r.rows = v) → restLevel r.occ r.depth 9 0 = some m →
          s.slotPoisoned cl array r e.base m e.row = true → fails 0x0206 { r with st := 2, cause := 0x0702 }) ∧
        (∀ m, r.st = 1 → (r.rowsSet = true → r.rows = v) → restLevel r.occ r.depth 9 0 = some m →
          s.slotPoisoned cl array r e.base m e.row = false → layoutOf e.base r [] = 0 →
            ∃ t, exec (.chunkSumInsert cl array) s = .next t ∧
              (∃ x, (((t.cluster cl).arr array).queue)[k]? = some x ∧ x.status = e.status ∧ x.row = e.row + 1) ∧
              (let last : Bool := e.row + 1 = e.rows.length
               t.chainOf cl array e.base = { r with
                 rows := v, rowsSet := true, occ := if last then occAfter r.occ 0 m else r.occ
                 count := if last then (r.count + 1) % 256 else r.count }) ∧
              ∀ n, n < 128 →
                t.level cl array e.base r m e.row n =
                  (List.range m).foldl (fun x j => node r.pair (s.level cl array e.base r j e.row n) x) (let x := nth (0, 0) vals.1 n; if r.pair then x else (x.1, 0))))) ∧
  (∀ (cl : ClusterId) (array : Nat) (before after : List Issued) (e : Issued) (s : State),
      let a := (s.cluster cl).arr array
      (∀ x ∈ before, x.waitsTile = false) → e.waitsTile = true → a.queue = before ++ e :: after →
        exec (.stationaryLoadComplete cl array) s = .next (s.setCluster cl ((s.cluster cl).setArr array
          { a with queue := before ++ { e with waitsTile := false } :: after })))

/-- Tier 2. ACC.OPEN on a layout that R126 accepts makes the chain OPEN and empty and writes no slot; otherwise it
opens nothing and carries the status of R126 (R125, R126). It takes its place in issue order behind the chunk sums of
its stream (R238). That a layout which is both too deep and owned answers ACC_CHAIN_DEPTH, and that CORR_BASE is 0
without a correction chain, are the model's choice (log 70). -/
def Obligations.ChainOpen : Prop :=
  ∀ (i : Issue) (f : AccF) (s : State),
    let a := (s.cluster i.cl).arr f.array
    let w := f.stream && s.split i.cl && f.array ≠ 0
    let per := (1 + f.depth) * (if f.pair then 2 else 1)
    let raw := fun k => f.base ≤ k ∧ k < f.base + per
    let corr := fun k => f.corr = true ∧ f.cbase ≤ k ∧ k < f.cbase + per
    let deep : Prop := ∃ k, (raw k ∨ corr k) ∧ 63 < k
    let hazard : Prop := ∃ k, (raw k ∧ corr k) ∨ ((raw k ∨ corr k) ∧ a.owned k = true)
    let gives : Nat → Chain → Prop := fun st r => ∃ t, exec (.accOpen i f) s = .next t ∧ s.sameBytes t ∧
      s.issued t i.cl (f.array + 1) { s.entryFor i 0x18 w f.base with status := st } ∧
      t.chainOf i.cl f.array f.base = r ∧ ∀ b, b ≠ f.base → t.chainOf i.cl f.array b = s.chainOf i.cl f.array b
    (Instr.accOpen i f).wf = true → s.canIssue i.cl (TileWord.acc 0x18 i f) = true → s.room i.cl (f.array + 1) = true →
      (s.inOrder i.cl f.array f.stream = false → exec (.accOpen i f) s = .next s) ∧
      (s.inOrder i.cl f.array f.stream = true →
      (deep → gives 0x0203 (a.chain f.base)) ∧
      (¬ deep → hazard → gives 0x0202 (a.chain f.base)) ∧
      (¬ deep → ¬ hazard → gives 0 { Chain.free with
        st := 1, depth := f.depth, pair := f.pair, corr := f.corr, corrBase := if f.corr then f.cbase else 0 }))

/-- Tier 2. ACC.MERGE of two OPEN chains that agree folds the source into the target: COUNT is the sum, the occupancy
is that of the levels inserted one after the other, and the source becomes FREE. A disagreement changes neither chain;
a POISONED chain, or a poisoned line in an OPEN one's slots, poisons the target with its cause and frees the source
(R124, R132, R133, R146); where a level beyond the depth would be needed the target is poisoned and the source stays.
It waits while a chunk sum of either chain is still to come (R144). The source's occupied levels go into the target in
ascending order, each at its own level and carrying past the occupied ones, the target's value on the left, in the raw
and in the correction tree (R132; the two chains share no slot, as R126 has it). Memory outside the target's slots
stays as it was, and all of it where nothing is merged. A poisoned line of the chain table under either record fails
it with PARITY_UNRECOVERED (R472, log 41). -/
def Obligations.ChainMerge : Prop :=
  ∀ (i : Issue) (f : AccF) (s : State),
    let a := (s.cluster i.cl).arr f.array
    let tr := a.chain f.base
    let sr := a.chain f.cbase
    let agree : Prop := f.base ≠ f.cbase ∧ tr.pair = sr.pair ∧ tr.corr = sr.corr ∧
      (tr.rowsSet = true → sr.rowsSet = true → tr.rows = sr.rows)
    let live : Chain → Bool := fun r => r.st = 1 || r.st = 2
    let hit : Chain → Nat → Bool := fun r b => r.st = 1 && (List.range 128).any fun row => s.slotPoisoned i.cl f.array r b 8 row
    let tbad := hit tr f.base
    let sbad := hit sr f.cbase
    let cause := if tbad then 0x0702 else if tr.st = 2 ∧ (tr.cause ≠ 0 ∨ (sr.st = 1 ∧ sbad = false)) then tr.cause
      else if sbad then 0x0702 else sr.cause
    let merged : Nat → Nat → Nat → Nat → Nat → Pair := fun tb sb row n m =>
      ((List.range 8).foldl (fun (p : (Nat → Pair) × Nat) k =>
        match (if bit sr.occ k then restLevel p.2 tr.depth 9 k else none) with
        | some q =>
          let x := (List.range q).foldl (fun x j => if j < k then x else node tr.pair (p.1 j) x) (s.level i.cl f.array sb sr k row n)
          (fun j => if j = q then x else p.1 j, occAfter p.2 k q)
        | none => p) (fun j => s.level i.cl f.array tb tr j row n, tr.occ)).1 m
    let ends : Nat → Chain → Chain → State → Prop := fun st t' s' t => exec (.accMerge i f) s = .next t ∧
      (∃ e, t.newest i.cl (f.array + 1) = some e ∧ e.status = st ∧ e.base = f.base) ∧
      t.chainOf i.cl f.array f.base = t' ∧ t.chainOf i.cl f.array f.cbase = s' ∧
      ∀ x, (∀ k ∈ tr.slots f.base, x < slotWord i.cl f.array k 0 0 ∨ slotWord i.cl f.array k 0 0 + 0x1_0000 ≤ x) →
        t.readByte x = s.readByte x
    let gives : Nat → Chain → Chain → Prop := fun st t' s' => ∃ t, ends st t' s' t ∧ s.sameBytes t
    let tables : Prop := s.poisoned (chainAddr i.cl f.array f.base) 8 = false ∧ s.poisoned (chainAddr i.cl f.array f.cbase) 8 = false
    (Instr.accMerge i f).wf = true → s.canIssue i.cl (TileWord.acc 0x19 i f) = true → s.room i.cl (f.array + 1) = true →
      (s.quiet i.cl f.array [f.base, f.cbase] = false → exec (.accMerge i f) s = .next s) ∧
      (s.quiet i.cl f.array [f.base, f.cbase] = true → ¬ tables → gives 0x0702 tr sr) ∧
      (s.quiet i.cl f.array [f.base, f.cbase] = true → tables →
      (¬ agree → gives 0x0203 tr sr) ∧
      (live tr = false ∨ live sr = false → gives 0x0203 tr sr) ∧
      (agree → live tr = true → live sr = true → tr.st = 2 ∨ sr.st = 2 ∨ tbad = true ∨ sbad = true →
        gives 0x0206 { tr with st := 2, cause := cause } Chain.free) ∧
      (agree → tr.st = 1 → sr.st = 1 → tbad = false → sbad = false → foldOcc tr.depth sr.occ (List.range 8) tr.occ = none →
        gives 0x0203 { tr with st := 2, cause := 0x0203 } sr) ∧
      (∀ occ, agree → tr.st = 1 → sr.st = 1 → tbad = false → sbad = false →
        foldOcc tr.depth sr.occ (List.range 8) tr.occ = some occ →
        layoutOf f.base tr (sr.slots f.cbase) = 0 → layoutOf f.cbase sr [] = 0 → sr.occ < 2 ^ (sr.depth + 1) →
        ∃ t, ends 0 { tr with occ := occ, count := (tr.count + sr.count) % 256, rowsSet := tr.rowsSet || sr.rowsSet
                              rows := if tr.rowsSet then tr.rows else sr.rows } Chain.free t ∧
          ∀ m row n, m ≤ tr.depth → row < 128 → n < 128 →
            t.level i.cl f.array f.base tr m row n = merged f.base f.cbase row n m ∧
            (tr.corr = true → t.level i.cl f.array tr.corrBase tr m row n = merged tr.corrBase sr.corrBase row n m)))

/-- Tier 2. ACC.RELEASE sets a chain FREE whatever its state and writes no slot (R146; a FREE one too, log 70), in its
place of the issue order of its stream (R238). A write of a chain record takes effect whole where R128 accepts it, and
otherwise leaves the record and answers ACC_HAZARD (R127, R128): among others while an accumulation, a merge, or a
vector or mover instruction that has begun is in flight on a slot that the old or the new record covers. That a record
written with STATE = FREE is judged by its layout too is the model's choice (log 70). -/
def Obligations.ChainReleaseAndRecords : Prop :=
  ∀ (s : State),
    (∀ i f, (Instr.accRelease i f).wf = true → s.canIssue i.cl (TileWord.acc 0x1A i f) = true →
      s.room i.cl (f.array + 1) = true → s.quiet i.cl f.array [f.base] = true → s.inOrder i.cl f.array f.stream = true →
        ∃ t, exec (.accRelease i f) s = .next t ∧ s.sameBytes t ∧
          s.issued t i.cl (f.array + 1) (s.entryFor i 0x1A (f.stream && s.split i.cl && f.array ≠ 0) f.base) ∧
          t.chainOf i.cl f.array f.base = Chain.free ∧ ∀ b, b ≠ f.base → t.chainOf i.cl f.array b = s.chainOf i.cl f.array b) ∧
    (∀ cl array b n, (Instr.chainRecordWrite cl array [(b, n)]).wf = true →
      let a := (s.cluster cl).arr array
      let r := Chain.ofWord n
      let cover := (a.chain b).slots b ++ r.slots b
      let ok : Prop := a.busyOn cover = false ∧ (∀ k ∈ s.windowed cl array, k ∉ cover) ∧ layoutOf b r (a.held b) = 0 ∧
        r.occ < 2 ^ (r.depth + 1) ∧ r.st ≠ 3
      s.dev.part.hasDie (cl / 16) = true → s.diesRun = true → ∃ t, exec (.chainRecordWrite cl array [(b, n)]) s = .next t ∧ s.sameBytes t ∧
        (∀ k, k ≠ b → t.chainOf cl array k = s.chainOf cl array k) ∧
        (ok → t.chainOf cl array b = r ∧ t.wire = .recordStatus 0 :: s.wire) ∧
        (¬ ok → t.chainOf cl array b = a.chain b ∧ t.wire = .recordStatus 0x0202 :: s.wire))

/-- Tier 2. DRAIN and GDRAIN. One that fails its checks or its reads writes nothing and keeps its chain; a POISONED
chain, or one whose slots hold a poisoned line, gives no output, is released and completes with CHAIN_POISONED;
otherwise the outputs are written and the chain that was read becomes FREE (R113 to R117, R146, R241, R242). With OEN
it waits for the vector instructions that write its slot (R241), and GDRAIN for the forward work of a unified stage's
tuning pass (R119, log 73); a poisoned line of the chain table under its record fails it (R472, log 41); no write of
another unit that has not completed is under way (R51). That a POISONED chain comes before the pair checks of R141 is
the model's choice (log 70). -/
def Obligations.DrainResults : Prop :=
  ∀ (c : Instr) (op : Nat) (grad : Bool) (i : Issue) (f : DrainF) (s : State),
    (c, op, grad) ∈ [(Instr.drain i f, 0x20, false), (.gdrain i f, 0x21, true)] → c.wf = true →
    s.canIssue i.cl (TileWord.drain op i f) = true → s.room i.cl (4 + f.array) = true →
    (grad = true ∧ f.gsrc = true ∨ s.quiet i.cl f.array [f.chain] = true) → s.unreleased i.cl (4 + f.array) = [] →
      (s.oslotWritten i f = false ∨ (grad = true ∧ s.forwardOver i.cl = false) → exec c s = .next s) ∧
      (s.oslotWritten i f = true → (grad = true → s.forwardOver i.cl = true) →
      let base := if grad = true ∧ f.gsrc = true then 0 else f.chain
      let p := s.drainOps grad i f
      let r := ((s.cluster i.cl).arr f.array).chain f.chain
      let st := s.drainCheck i f p
      let rd := s.drainReads i f p
      let lost : Bool := !p.gsrc && s.poisoned (chainAddr i.cl f.array f.chain) 8
      (st = 0 → lost = true → ∃ t, exec c s = .next t ∧ s.sameBytes t ∧ t.chainOf i.cl f.array f.chain = r ∧
        s.issued t i.cl (4 + f.array) { s.entryFor i op false base with status := 0x0702, parity := true }) ∧
      (st ≠ 0 → ∃ t, exec c s = .next t ∧ s.sameBytes t ∧ t.chainOf i.cl f.array f.chain = r ∧
        s.issued t i.cl (4 + f.array) { s.entryFor i op false base with status := st }) ∧
      (st = 0 → lost = false → p.gsrc = false → r.st = 2 → ∃ t, exec c s = .next t ∧ s.sameBytes t ∧
        t.chainOf i.cl f.array f.chain = Chain.free ∧
        s.issued t i.cl (4 + f.array) { s.entryFor i op false base with status := 0x0206, parity := r.cause = 0x0702 }) ∧
      (st = 0 → lost = false → p.gsrc = false → r.st ≠ 2 → s.drainPoisoned i f p = true →
        ∃ t, exec c s = .next t ∧ s.sameBytes t ∧ t.chainOf i.cl f.array f.chain = Chain.free ∧
          s.issued t i.cl (4 + f.array) { s.entryFor i op false base with status := 0x0206, parity := true }) ∧
      (st = 0 → lost = false → (p.gsrc = true ∨ r.st ≠ 2) → rd ≠ 0 → s.drainPoisoned i f p = false →
        ∃ t, exec c s = .next t ∧ s.sameBytes t ∧ t.chainOf i.cl f.array f.chain = r ∧
          s.issued t i.cl (4 + f.array) { s.entryFor i op false base with status := rd, parity := rd = 0x0702 }) ∧
      (st = 0 → lost = false → (p.gsrc = true ∨ r.st ≠ 2) → rd = 0 → s.drainPoisoned i f p = false →
        ∃ t, exec c s = .next t ∧ (∃ e, t.newest i.cl (4 + f.array) = some e ∧ e.status = 0 ∧ e.base = base) ∧
          (∀ a, t.readByte a = (s.drainWork i f p).readByte a) ∧
          (p.gsrc = false → t.chainOf i.cl f.array f.chain = Chain.free)))

/-! ### Data movers -/

/-- Tier 2. The four kinds of MOV. One that finds its mover at work, or that an accumulation or a merge in flight
keeps waiting, joins the mover's queue with what it takes of registers and descriptors, and begins later as
InstructionCompletes says (R144, R216). Else it begins at once: one that fails its checks moves nothing; one that
meets an accumulation or a merge in flight with NOWAIT fails with ACC_HAZARD; otherwise the block is copied,
converted, quantized or gathered by the index list at AREG, and the operation carries the status of the first cell
that could not be read, or ACC_HAZARD where a chain record was refused; chain records are written in ascending address
(R128, R205, R207 to R212, R144, R246). No write of another unit that has not completed is under way (R51). That the
work is done at issue, and the order of the checks where several fail, are the model's (log 18, log 19). -/
def Obligations.MoverResults : Prop :=
  ∀ (c : Instr) (kind : Nat) (i : Issue) (f : MovF) (s : State),
    (c, kind) ∈ [(Instr.movCopy i f, 0), (.movConvert i f, 1), (.movQuant i f, 2), (.movGather i f, 3)] → c.wf = true →
    s.canIssue i.cl (TileWord.mov kind i f) = true → s.room i.cl (8 + f.mover) = true → s.unreleased i.cl (8 + f.mover) = [] →
      let p := (s.cluster i.cl).movOps f
      let st := s.movCheck kind i f p
      let fails : Nat → Prop := fun st => ∃ t, exec c s = .next t ∧ s.sameBytes t ∧
        s.issued t i.cl (8 + f.mover) { s.entryFor i 0x30 false 0 with status := st, parity := st = 0x0702 }
      (s.unitQueue i.cl (8 + f.mover) ≠ [] ∨ (st = 0 ∧ f.nowait = false ∧ s.movBusy kind p = true) →
        s.waits c i (8 + f.mover) 0x30 (.mov kind i f) []) ∧
      (s.unitQueue i.cl (8 + f.mover) = [] →
      (st = 0 → s.movBusy kind p = false ∨ f.nowait = true → exec c s = .next (s.startWork (.mov kind i f))) ∧
      (st ≠ 0 → fails st) ∧
      (st = 0 → s.movBusy kind p = true → f.nowait = true → fails 0x0202) ∧
      (st = 0 → s.movBusy kind p = false → kind = 3 → s.poisoned p.areg (4 * nth 0 p.dext 1) = true → fails 0x0702) ∧
      (st = 0 → s.movBusy kind p = false → (kind = 3 → s.poisoned p.areg (4 * nth 0 p.dext 1) = false) →
        let m := if kind = 2 then s.moveQuant i.cl f.trans p else if p.d.brick then s.moveBricks f.trans p
          else s.moveElems kind f.trans p fun j => s.readLE (p.areg + 4 * j) 4
        let r := m.s.putRecords m.records
        ∃ t, exec c s = .next t ∧ ∃ e, t.newest i.cl (8 + f.mover) = some e ∧
          e.status = (if m.stop ≠ 0 then m.stop else if r.2 then 0x0202 else 0) ∧ r.1.sameBytes t))

/-! ### Vector engine -/

/-- Tier 2. The register functions of Table Vector functions. Each active element j of VD takes the function of
elements j of VA, of VB (or of a scalar register where BSCAL is 1) and of VC, under RM, F64 where PREC is 1; the
others and every other register stay, memory is untouched, and the instruction carries the flags raised, which VCSR
takes when it completes (R148 to R154, R157, R243). That the work is done at issue where the engine holds nothing else
is the model's choice (log 18). Every VEC instruction that finds the engine at work, and one that an accumulation or a
merge in flight keeps waiting, joins the engine's queue with what it takes of registers and descriptors, and begins
later as InstructionCompletes says (R144, R225, R226). -/
def Obligations.VectorFunctions : Prop :=
  (∀ (c : Instr) (fn : Nat) (i : Issue) (f : VecF) (s : State),
    (c, fn) ∈ [(Instr.vecAdd i f, 0x00), (.vecSub i f, 0x01), (.vecMul i f, 0x02), (.fma i f, 0x03), (.vecMin i f, 0x04),
      (.vecMax i f, 0x05), (.neg i f, 0x06), (.abs i f, 0x07), (.cmpgt i f, 0x08), (.cmpge i f, 0x09), (.cmpeq i f, 0x0A),
      (.sel i f, 0x0B), (.cvtd i f, 0x0C), (.cvts i f, 0x0D), (.div i f, 0x10), (.sqrt i f, 0x11), (.exp2 i f, 0x18),
      (.log2 i f, 0x19), (.rcp i f, 0x1A), (.rsq i f, 0x1B), (.sig i f, 0x1C), (.tanh i f, 0x1D), (.ld i f, 0x20),
      (.st i f, 0x21), (.stq i f, 0x22), (.rowsum i f, 0x28), (.rowmax i f, 0x29), (.rowmin i f, 0x2A), (.act i f, 0x30),
      (.actb i f, 0x31), (.osum i f, 0x38), (.osumT i f, 0x39), (.setrm i f, 0x3C)] → s.vecReady fn i f = true →
      (s.cluster i.cl).vec ≠ [] ∨ (f.nowait = false ∧ s.vecBusy fn i f = true) →
        s.waits c i 7 0x28 (.vec fn i f) (s.vecWrites fn i f)) ∧
  ∀ (c : Instr) (fn : Nat) (wide : Bool) (op : Fmt → Nat → Nat → Nat → Nat → Nat × Nat) (i : Issue) (f : VecF) (s : State),
    (c, fn, wide, op) ∈ [
      (Instr.vecAdd i f, 0x00, f.prec, fun m rm a b _ => Fp.add m rm a b), (.vecSub i f, 0x01, f.prec, fun m rm a b _ => Fp.sub m rm a b),
      (.vecMul i f, 0x02, f.prec, fun m rm a b _ => Fp.mul m rm a b), (.fma i f, 0x03, f.prec, fun m rm a b c => Fp.fma m rm a b c),
      (.vecMin i f, 0x04, f.prec, fun m _ a b _ => Fp.minimum m a b), (.vecMax i f, 0x05, f.prec, fun m _ a b _ => Fp.maximum m a b),
      (.neg i f, 0x06, f.prec, fun m _ a _ _ => (Fp.neg m a, 0)), (.abs i f, 0x07, f.prec, fun m _ a _ _ => (Fp.abs m a, 0)),
      (.div i f, 0x10, f.prec, fun m rm a b _ => Fp.div m rm a b), (.sqrt i f, 0x11, f.prec, fun m rm a _ _ => Fp.sqrt m rm a),
      (.exp2 i f, 0x18, false, fun _ _ a _ _ => Sfu.exp2 a), (.log2 i f, 0x19, false, fun _ _ a _ _ => Sfu.log2 a),
      (.rcp i f, 0x1A, false, fun _ _ a _ _ => Sfu.rcp a), (.rsq i f, 0x1B, false, fun _ _ a _ _ => Sfu.rsq a),
      (.sig i f, 0x1C, false, fun _ _ a _ _ => Sfu.sig a), (.tanh i f, 0x1D, false, fun _ _ a _ _ => Sfu.tanh a)] →
    s.vecReady fn i f = true → (s.cluster i.cl).vec = [] →
      let k := s.cluster i.cl
      let n := if wide then 128 else 256
      let r : Nat → Nat × Nat := fun j => op (if wide then .f64 else .f32) k.rm (k.vreg wide f.va j) (k.opB f wide j) (k.vreg wide f.vc j)
      let flags := (List.range n).foldl (fun a j => if k.active f wide j then a ||| (r j).2 else a) 0
      ∃ t, exec c s = .next t ∧ s.sameBytes t ∧ s.issued t i.cl 7 { s.entryFor i 0x28 false 0 with flags := flags } ∧
        (∀ j, j < n → (t.cluster i.cl).vreg wide f.vd j =
          if k.active f wide j then (r j).1 % 2 ^ (if wide then 64 else 32) else k.vreg wide f.vd j) ∧
        (∀ q lane, q ≠ f.vd → lane < 256 → (t.cluster i.cl).v32 q lane = k.v32 q lane) ∧
        (t.cluster i.cl).m = k.m ∧ (t.cluster i.cl).flags = k.flags

/-- Tier 2. CMPGT, CMPGE and CMPEQ write their results to mask register VD mod 8, into both bits of an F64 element, at
the active elements, and leave its other bits, the other mask registers and every vector register. A NaN compares
false; the first two raise NV for any NaN, CMPEQ for a signalling one (R149, R152). Which compares signal is the
model's reading (log 56). SEL takes VA where mask register VC mod 8 is 1 and VB elsewhere; CVTD widens lanes 0 to 127,
a NaN keeping its payload (R54; that a signalling one becomes quiet and raises NV is the model's choice, log 71); CVTS
narrows the F64 elements into lanes 0 to 127 and clears the others; SETRM writes RM and nothing else (R151, R153,
Table Vector functions); the engine holds nothing else, so they begin at once. -/
def Obligations.VectorCompares : Prop :=
  (∀ (c : Instr) (fn : Nat) (quiet : Bool) (op : Fmt → Nat → Nat → Bool) (i : Issue) (f : VecF) (s : State),
      (c, fn, quiet, op) ∈ [(Instr.cmpgt i f, 0x08, false, fun m a b => Fp.lt m b a),
        (.cmpge i f, 0x09, false, fun m a b => Fp.le m b a), (.cmpeq i f, 0x0A, true, fun m a b => Fp.eq m a b)] →
      s.vecReady fn i f = true → (s.cluster i.cl).vec = [] →
        let k := s.cluster i.cl
        let w := if f.prec then 2 else 1
        let m : Fmt := if f.prec then .f64 else .f32
        let a := k.vreg f.prec f.va
        let b := k.opB f f.prec
        let flags := (List.range (256 / w)).foldl (fun z j =>
          if k.active f f.prec j && (Fp.snan m (a j) || Fp.snan m (b j) || (!quiet && (Fp.isNan m (a j) || Fp.isNan m (b j))))
          then z ||| flagNV else z) 0
        ∃ t, exec c s = .next t ∧ s.sameBytes t ∧ s.issued t i.cl 7 { s.entryFor i 0x28 false 0 with flags := flags } ∧
          (t.cluster i.cl).v = k.v ∧ (t.cluster i.cl).flags = k.flags ∧
          (∀ q, q ≠ f.vd % 8 → Table.get 0 (t.cluster i.cl).m q = Table.get 0 k.m q) ∧
          (∀ j x, j < 256 / w → x < w → (Table.get 0 (t.cluster i.cl).m (f.vd % 8)).getLsbD (w * j + x) =
            if k.active f f.prec j then op m (a j) (b j) else (Table.get 0 k.m (f.vd % 8)).getLsbD (w * j + x))) ∧
  (∀ (i : Issue) (f : VecF) (s : State),
      let k := s.cluster i.cl
      let done : Instr → Nat → (State → Prop) → Prop := fun c flags p => ∃ t, exec c s = .next t ∧ s.sameBytes t ∧
        s.issued t i.cl 7 { s.entryFor i 0x28 false 0 with flags := flags } ∧ (t.cluster i.cl).m = k.m ∧
        (t.cluster i.cl).flags = k.flags ∧ p t
      let narrow : Nat → Nat × Nat := fun j => Fp.conv .f64 .f32 k.rm (k.v64 f.va j)
      let others : State → Prop := fun t => ∀ q lane, q ≠ f.vd → lane < 256 → (t.cluster i.cl).v32 q lane = k.v32 q lane
      k.vec = [] →
      (s.vecReady 0x0B i f = true → done (.sel i f) 0 fun t => others t ∧
        ∀ j, j < (if f.prec then 128 else 256) → (t.cluster i.cl).vreg f.prec f.vd j =
          if !k.active f f.prec j then k.vreg f.prec f.vd j
          else if k.maskBit f.prec (f.vc % 8) j then k.vreg f.prec f.va j else k.opB f f.prec j) ∧
      (s.vecReady 0x0C i f = true → done (.cvtd i f)
        ((List.range 128).foldl (fun z j => if k.active f true j && Fp.snan .f32 (k.v32 f.va j) then z ||| flagNV else z) 0)
        fun t => others t ∧ ∀ j, j < 128 → (t.cluster i.cl).v64 f.vd j =
          if k.active f true j then Fp.quiet .f64 (Fp.widen (k.v32 f.va j)) % 2 ^ 64 else k.v64 f.vd j) ∧
      (s.vecReady 0x0D i f = true → done (.cvts i f)
        ((List.range 128).foldl (fun z j => if k.active f false j then z ||| (narrow j).2 else z) 0) fun t => others t ∧
        ∀ j, j < 256 → (t.cluster i.cl).v32 f.vd j =
          if !k.active f false j then k.v32 f.vd j
          else if j < 128 then (narrow j).1 % 2 ^ 32 else 0) ∧
      (s.vecReady 0x3C i f = true → done (.setrm i f) 0 fun t => (t.cluster i.cl).v = k.v ∧ (t.cluster i.cl).rm = f.va % 4))

/-- Tier 2. LD, ST and STQ, the engine holding nothing else. A failed check or a position that cannot be read fails them
with its status; where the checks pass, an accumulation or a merge in flight under the block makes them wait, or with
NOWAIT fail with ACC_HAZARD (R144, R191). LD puts element (row, column) of the block, decoded, into the active elements
of VD; ST stores only the elements that the shape covers, at the addresses its descriptor gives, each in the
destination's format (R150, R155, R243, R533). STQ quantizes the active elements through the record at QREG,
brick by brick, or element by element into an unbricked target: a brick whose rows no earlier store has written takes
the codes and the header that R63 gives for these rows alone, and one of which other rows stand takes those of all its
rows (R156). It changes no byte but those of the bricks or elements that it touches, their sums and clip masks, the
side tensor, and the record's statistics (R76, R79, R82, R90). No write of another unit that has not completed is
under way. -/
def Obligations.VectorLoadStore : Prop :=
  ∀ (i : Issue) (f : VecF) (s : State),
    let k := s.cluster i.cl
    let p := k.vop f.opa
    let sh := k.shape f
    let big : Bool := (if f.prec then 128 else 256) < sh.1 * sh.2
    let at' : Nat → List Int := fun j => p.at (j / sh.2) (j % sh.2)
    let fails : Instr → Nat → Prop := fun c st => ∃ t, exec c s = .next t ∧ s.sameBytes t ∧
      s.issued t i.cl 7 { s.entryFor i 0x28 false 0 with status := st, parity := st = 0x0702 } ∧ (t.cluster i.cl).v = k.v
    let ldSt := firstStatus [s.vopCheck i.cl false false p, if big then 0x0103 else 0]
    let stSt := firstStatus [s.vopCheck i.cl true false p, if p.d.brick then 0x0104 else 0, if big then 0x0103 else 0]
    let sqSt := firstStatus [s.vopCheck i.cl true false p, if 256 < sh.1 * sh.2 then 0x0103 else 0,
      if p.d.brick && sh.2 % 16 ≠ 0 then 0x0101 else 0, s.qcheck (s.qrec (k.sreg f.qreg).toNat) p.d]
    let still : Prop := s.unreleased i.cl 7 = []
    k.vec = [] →
    (∀ c fn w st, (c, fn, w, st) ∈ [(Instr.ld i f, 0x20, false, ldSt), (.st i f, 0x21, true, stSt), (.stq i f, 0x22, true, sqSt)] →
      s.vecReady fn i f = true →
      (st = 0 → s.busyA i f w = true → f.nowait = true → fails c 0x0202) ∧ (st ≠ 0 → still → fails c st)) ∧
    (s.busyA i f false = false → s.vecReady 0x20 i f = true → still →
      (ldSt = 0 → s.vopStatus p sh.1 sh.2 ≠ 0 → fails (.ld i f) (s.vopStatus p sh.1 sh.2)) ∧
      (ldSt = 0 → s.vopStatus p sh.1 sh.2 = 0 → ∃ t, exec (.ld i f) s = .next t ∧ s.sameBytes t ∧
        s.issued t i.cl 7 { s.entryFor i 0x28 false 0 with
          rslots := s.vopSlots p false sh.1 sh.2
          flags := (List.range (sh.1 * sh.2)).foldl (fun z j =>
            if k.active f f.prec j && !f.prec then z ||| ((s.cell p.d (at' j)).f32 p.d k.rm).2 else z) 0 } ∧
        (∀ q lane, q ≠ f.vd → lane < 256 → (t.cluster i.cl).v32 q lane = k.v32 q lane) ∧
        ∀ j, j < (if f.prec then 128 else 256) → (t.cluster i.cl).vreg f.prec f.vd j =
          if j < sh.1 * sh.2 ∧ k.active f f.prec j = true then
            (if f.prec then (s.cell p.d (at' j)).f64 p.d % 2 ^ 64 else ((s.cell p.d (at' j)).f32 p.d k.rm).1 % 2 ^ 32)
          else k.vreg f.prec f.vd j)) ∧
    (s.busyA i f true = false → s.vecReady 0x21 i f = true → still →
      (stSt = 0 → ∃ t, exec (.st i f) s = .next t ∧
        (∃ e, t.newest i.cl 7 = some e ∧ e.status = 0) ∧
        (∀ j, j < sh.1 * sh.2 → k.active f f.prec j = true → p.d.inb (at' j) = true →
          (∀ cl x, regionAt s.dev.part (p.d.addr (at' j)).toNat ≠ some (.chains cl x)) →
          (∀ q, q < sh.1 * sh.2 → q ≠ j → (p.d.addr (at' q)).toNat + p.d.unit ≤ (p.d.addr (at' j)).toNat ∨
            (p.d.addr (at' j)).toNat + p.d.unit ≤ (p.d.addr (at' q)).toNat) →
          t.readLE (p.d.addr (at' j)).toNat p.d.unit =
            (encodePlain p.d.ty p.d.ovf f.prec k.rm (k.vreg f.prec f.vd j)).1 % 2 ^ (8 * p.d.unit)) ∧
        ∀ a, (∀ j, j < sh.1 * sh.2 → k.active f f.prec j = true →
          a < (p.d.addr (at' j)).toNat ∨ (p.d.addr (at' j)).toNat + p.d.unit ≤ a) → t.readByte a = s.readByte a)) ∧
    (s.busyA i f true = false → s.vecReady 0x22 i f = true → still →
      let v := s.quantEnv i.cl (k.sreg f.qreg).toNat
      let q := v.q
      let ch := if q.outEn then s.mapChannels q.omap else []
      let x : Nat → Nat → Option Nat := fun r n =>
        if k.active f false (r * sh.2 + n) then some (k.v32 f.vd (r * sh.2 + n)) else none
      let first : Nat → Nat → List Int := fun r n => (nth 0 p.o 0 + 16 * ((n / 16 : Nat) : Int)) :: ((nth 0 p.o 1 + r) / 16 * 16) :: p.o.drop 2
      let within : Nat → Nat → Nat → Prop := fun a n y => a ≤ y ∧ y < a + n
      let touched : Nat → Prop := fun y => within (q.addr + 0x30) 12 y ∨
        (q.outEn = true ∧ within q.side (64 + 2 * (max 1 (p.d.sizeOf 1) * ch.length)) y) ∨
        ∃ r n, r < sh.1 ∧ n < sh.2 ∧
          (if p.d.brick then
            let off := p.d.offset (first r n)
            within (p.d.brickAddr off) p.d.unit y ∨ within (p.d.hdrAddr off) 4 y ∨ (p.d.sums ≠ 0 ∧ within (p.d.sumAddr off) 32 y) ∨
              (q.maskEn = true ∧ within (maskAddr q.mask off) 64 y)
          else within (p.d.addr (p.at r n)).toNat p.d.unit y ∨
            (q.maskEn = true ∧ within (maskAddr q.mask (p.d.image (p.at r n))) 64 y))
      sqSt = 0 → ∃ t, exec (.stq i f) s = .next t ∧ (∃ e, t.newest i.cl 7 = some e ∧ e.status = 0) ∧
        (∀ y, ¬ touched y → t.readByte y = s.readByte y) ∧
        (if p.d.brick then (s.stqBlock i.cl v p sh.1 sh.2 x).1
          else ((List.range (sh.1 * sh.2)).foldl (fun w j =>
            (State.quantElem w v p.d ch (p.at (j / sh.2) (j % sh.2)) (x (j / sh.2) (j % sh.2))).1) (s.sideHeader v))).sameBytes t ∧
        (p.d.brick = true → q.outEn = false → sh.2 = 16 → 0 < sh.1 → p.d.inBrick (first 0 0) = true →
          let lo := (nth 0 p.o 1 % 16).toNat
          let off := p.d.offset (first 0 0)
          let a := p.d.brickAddr off
          let old := (k.asm.find? fun e => e.addr = a).map fun e => (e.rows, e.torn, e.xs)
          let places := [(a, p.d.unit), (p.d.hdrAddr off, 4), (q.addr + 0x30, 12)] ++
            (if q.sumEn && p.d.sums ≠ 0 then [(p.d.sumAddr off, 32)] else []) ++ (if q.maskEn then [(maskAddr q.mask off, 64)] else [])
          lo + sh.1 ≤ 16 → (∀ o, old = some o → o.1 &&& rowMask lo (lo + sh.1) = 0 ∧ o.2.1 = false ∧ o.2.2.length = 256) →
          places.Pairwise (fun x y => x.1 + x.2 ≤ y.1 ∨ y.1 + y.2 ≤ x.1) →
            let xs := (List.range 256).map fun z =>
              s.contrib v p.d ch (plus (first 0 0) [z % 16, z / 16, 0, 0, 0, 0])
                (if lo ≤ z / 16 ∧ z / 16 < lo + sh.1 then x (z / 16 - lo) (z % 16) else (old.map fun o => nth none o.2.2 z).getD none)
            let r := quantBrick p.d.ty (effAlpha (s.groupAlpha v (v.grp (nth 0 (first 0 0) 1)))) xs
              (fun z => if p.d.ty = tyG4 then noise16 v.seed (p.d.omap % 2 ^ 24) v.n (p.d.linear (plus (first 0 0) [z % 16, z / 16, 0, 0, 0, 0])) else 0)
              false
            t.readBytes a p.d.unit = packBrick p.d.ty r.codes ∧ t.readLE (p.d.hdrAddr off) 4 = reTag r.hdr (brickTag a)))

/-- Tier 2. ROWSUM, ROWMAX and ROWMIN: the value of each row of the input block, by the insertion tree of R158 or the
extreme of R159, goes to column 0 of the result operand through the block write, and the instruction carries their
flags (R154). Failed checks and positions that cannot be read fail the instruction, which then writes nothing. OSUM
writes O(i, n), the sum over the entries j of the outlier map of activation (i, j) times element n of outlier weight
row j, in ascending j; OSUM.T writes at the column of each channel the sum over dimension 0 of dY times that weight
row, and +0 elsewhere (R92, R93). With MEN these two write only the elements whose lane the mask names (R149, log 79).
The engine holds nothing else, and no write of another unit that has not completed is under way (R51). -/
def Obligations.RowReductions : Prop :=
  (∀ (c : Instr) (fn : Nat) (op : List FR → FR) (i : Issue) (f : VecF) (s : State),
      (c, fn, op) ∈ [(Instr.rowsum i f, 0x28, rowSum), (.rowmax i f, 0x29, rowMax), (.rowmin i f, 0x2A, rowMin)] →
      s.vecReady fn i f = true → (s.cluster i.cl).vec = [] →
        let k := s.cluster i.cl
        let p := k.vop f.opa
        let q := k.vop f.opb
        let sh := k.shape f
        let chk := firstStatus [s.vopCheck i.cl false false p, s.vopCheck i.cl true false q, if q.d.brick then 0x0104 else 0]
        let st := firstStatus [chk, s.vopStatus p sh.1 sh.2]
        let row : Nat → FR := fun r => op ((List.range sh.2).map fun x => (s.cell p.d (p.at r x)).f32 p.d k.rm)
        let fails : Nat → Prop := fun st => ∃ t, exec c s = .next t ∧ s.sameBytes t ∧
          s.issued t i.cl 7 { s.entryFor i 0x28 false 0 with status := st, parity := st = 0x0702 }
        (chk = 0 → s.busyRow i f = true → f.nowait = true → fails 0x0202) ∧
        (chk ≠ 0 ∨ s.busyRow i f = false → s.unreleased i.cl 7 = [] → st ≠ 0 → fails st) ∧
        (s.busyRow i f = false → s.unreleased i.cl 7 = [] → st = 0 → ∃ t, exec c s = .next t ∧
          (∃ e, t.newest i.cl 7 = some e ∧ e.status = 0 ∧ e.flags = (List.range sh.1).foldl (fun z r => z ||| (row r).2) 0) ∧
          (t.cluster i.cl).v = k.v ∧
          (((s.vopCount i.cl p sh.1 sh.2 0).putBlock (i.cl / 16) 3 q.d q.o [1, sh.1] fun t =>
            if nth 0 t 1 < sh.1 then (row (nth 0 t 1)).1 else 0).sameBytes t))) ∧
  (∀ (i : Issue) (f : VecF) (s : State),
      let k := s.cluster i.cl
      let n := (k.shape f).1
      let w := k.vop f.opb
      let o := k.vop f.opc
      let a := k.vop f.opa
      let aT : VOp := { a with o := a.o.set 0 0 }
      let map := w.d.omap
      let entries := s.readLE map 2
      let chk : VOp → Nat := fun a => firstStatus [s.vopCheck i.cl false false a, s.vopCheck i.cl false false w,
        s.vopCheck i.cl true false o, if map = 0 || w.d.ty = tyG4 || !s.osumTile o then 0x0104 else 0]
      let st : VOp → Nat → Nat := fun a cols => firstStatus [chk a,
        s.vopStatus a n cols, if s.poisoned map (64 + 4 * entries) then 0x0702 else 0]
      let fails : Instr → Nat → Prop := fun x st => ∃ t, exec x s = .next t ∧ s.sameBytes t ∧
        s.issued t i.cl 7 { s.entryFor i 0x28 false 0 with status := st, parity := st = 0x0702 }
      let writes : Instr → VOp → Nat → (Nat → Nat → FR) → Prop := fun x a cols v => ∃ t, exec x s = .next t ∧
        (∃ e, t.newest i.cl 7 = some e ∧ e.status = 0) ∧
        (((s.vopCount i.cl a n cols 0).putLanes (i.cl / 16) o.d o.o [128, n] (fun t => k.lane f 128 (nth 0 t 1) (nth 0 t 0)) fun t =>
          if nth 0 t 1 < n ∧ nth 0 t 0 < 128 then (v (nth 0 t 1) (nth 0 t 0)).1 else 0).sameBytes t)
      k.vec = [] →
      (∀ x fn b c, (x, fn, b, c) ∈ [(Instr.osum i f, 0x38, false, chk a), (.osumT i f, 0x39, true, chk aT)] → s.vecReady fn i f = true →
        c = 0 → s.busyOsum i f b = true → f.nowait = true → fails x 0x0202) ∧
      (s.vecReady 0x38 i f = true → chk a ≠ 0 ∨ s.busyOsum i f false = false → s.unreleased i.cl 7 = [] →
        (st a entries ≠ 0 → fails (.osum i f) (st a entries)) ∧
        (st a entries = 0 → writes (.osum i f) a entries fun r x => sumInOrder ((List.range entries).map fun j =>
          frMul ((s.cell a.d (a.at r j)).f32 a.d k.rm) (s.wrow map (w.d.sizeOf 0) j ((nth 0 w.o 0).toNat + x))))) ∧
      (s.vecReady 0x39 i f = true → chk aT ≠ 0 ∨ s.busyOsum i f true = false → s.unreleased i.cl 7 = [] →
        (st aT (a.d.sizeOf 0) ≠ 0 → fails (.osumT i f) (st aT (a.d.sizeOf 0))) ∧
        (st aT (a.d.sizeOf 0) = 0 → writes (.osumT i f) aT (a.d.sizeOf 0) fun r x =>
          match (s.mapChannels map).findIdx? (· = (nth 0 w.o 1).toNat + x) with
          | some j => sumInOrder ((List.range (a.d.sizeOf 0)).map fun m =>
              frMul ((s.cell a.d (aT.at r m)).f32 a.d k.rm) (s.wrow map (w.d.sizeOf 0) j m))
          | none => (0, 0))))

/-- Tier 2. ACT applies the catalog function CAT row by row and writes its output to OPB, its first saved value to OPC
and a second one, where the function has it, to OPD; ACTB reads the saved values and writes the gradient to OPB (R160
to R169, R245). With MEN an element is written only where the mask names its lane (R149, log 79). Failed checks and
reads write nothing. The engine holds nothing else, and no write of another unit that has not completed is under
way. -/
def Obligations.ActivationForms : Prop :=
  ∀ (i : Issue) (f : VecF) (s : State),
    let k := s.cluster i.cl
    let sh := k.shape f
    let q := (k.sreg f.qreg).toNat
    let two : Bool := f.cat = 4 || f.cat = 5 || f.cat = 9
    let w2 := if f.cat = 9 then 1 else sh.2
    let a := k.vop f.opa
    let b := k.vop f.opb
    let c := k.vop f.opc
    let d := k.vop f.opd
    let gain := k.vop f.ope
    let rows : VOp → Nat → Nat → List FR := fun p r n => (List.range n).map fun x => (s.cell p.d (p.at r x)).f32 p.d k.rm
    let par : FR := ((k.sreg f.preg).toNat % 2 ^ 32, 0)
    let g := if f.cat = 9 then rows gain 0 sh.2 else []
    let bad2 : Bool := f.cat = 9 && (d.d.brick || d.d.ty ≠ tyF32)
    let out := (List.range sh.1).map fun r => actForward f.cat par g (rows a r sh.2)
    let back := (List.range sh.1).map fun r => actBackward f.cat par g (rows a r sh.2) (rows c r sh.2) (if two then rows d r w2 else [])
    let chk := firstStatus [s.vopCheck i.cl false false a, s.actCheck i q b sh.1 sh.2, s.actCheck i (q + 64) c sh.1 sh.2,
      if two then (if bad2 then 0x0104 else s.actCheck i (q + 128) d sh.1 w2) else 0,
      if f.cat = 9 then s.vopCheck i.cl false false gain else 0]
    let st := firstStatus [chk, s.vopStatus a sh.1 sh.2, if f.cat = 9 then s.vopStatus gain 1 sh.2 else 0]
    let bchk := firstStatus [s.vopCheck i.cl false false a, s.actCheck i q b sh.1 sh.2, s.vopCheck i.cl false false c,
      if two then (if bad2 then 0x0104 else s.vopCheck i.cl false false d) else 0,
      if f.cat = 9 then s.vopCheck i.cl false false gain else 0]
    let bst := firstStatus [bchk, s.vopStatus a sh.1 sh.2, s.vopStatus c sh.1 sh.2, if two then s.vopStatus d sh.1 w2 else 0,
      if f.cat = 9 then s.vopStatus gain 1 sh.2 else 0]
    let fails : Instr → Nat → Prop := fun x st => ∃ t, exec x s = .next t ∧ s.sameBytes t ∧
      s.issued t i.cl 7 { s.entryFor i 0x28 false 0 with status := st, parity := st = 0x0702 }
    let ends : Instr → State → Prop := fun x w => ∃ t, exec x s = .next t ∧
      (∃ e, t.newest i.cl 7 = some e ∧ e.status = 0) ∧ w.sameBytes t
    let counted : List VOp → State := fun l =>
      let t := l.foldl (fun t p => t.vopCountOn i f p sh.1 sh.2) s
      let t := if l.length = 2 ∧ two then t.vopCountOn i f d sh.1 w2 else t
      if f.cat = 9 then t.vopCount i.cl gain 1 sh.2 0 else t
    k.vec = [] →
    (∀ x fn w c, (x, fn, w, c) ∈ [(Instr.act i f, 0x30, true, chk), (.actb i f, 0x31, false, bchk)] → s.vecReady fn i f = true →
      c = 0 → s.busyAct i f w = true → f.nowait = true → fails x 0x0202) ∧
    (s.vecReady 0x30 i f = true → chk ≠ 0 ∨ s.busyAct i f true = false → s.unreleased i.cl 7 = [] →
      (st ≠ 0 → fails (.act i f) st) ∧
      (st = 0 →
        let y := ((counted [a]).actWrite i f q b sh.1 sh.2 (out.map (·.out))).actWrite i f (q + 64) c sh.1 sh.2 (out.map (·.save1))
        ends (.act i f) (if two then y.actWrite i f (q + 128) d sh.1 w2 (out.map (·.save2)) else y))) ∧
    (s.vecReady 0x31 i f = true → bchk ≠ 0 ∨ s.busyAct i f false = false → s.unreleased i.cl 7 = [] →
      (bst ≠ 0 → fails (.actb i f) bst) ∧
      (bst = 0 → ends (.actb i f) ((counted [a, c]).actWrite i f q b sh.1 sh.2 back)))

/-- Tier 2. What the vector register forms leave unchanged when they answer a next state: memory, every other cluster,
and in their own everything but PC, the engine's queue, the vector and mask registers and RM; in particular the flags
(which completion sets), the scalar registers, descriptor slots, semaphores and arrays. -/
def Obligations.VectorFrame : Prop :=
  ∀ (c : Instr) (i : Issue) (f : VecF) (s t : State),
    c ∈ [Instr.vecAdd i f, .vecSub i f, .vecMul i f, .fma i f, .vecMin i f, .vecMax i f, .neg i f, .abs i f, .cmpgt i f,
      .cmpge i f, .cmpeq i f, .sel i f, .cvtd i f, .cvts i f, .div i f, .sqrt i f, .exp2 i f, .log2 i f, .rcp i f, .rsq i f,
      .sig i f, .tanh i f, .setrm i f] → exec c s = .next t →
      s.sameBytes t ∧ s.onlyCluster t i.cl ∧ (t.cluster i.cl) = { s.cluster i.cl with
        pc := (t.cluster i.cl).pc, vec := (t.cluster i.cl).vec, v := (t.cluster i.cl).v, m := (t.cluster i.cl).m
        rm := (t.cluster i.cl).rm } ∧
      (c ≠ .setrm i f → (t.cluster i.cl).rm = (s.cluster i.cl).rm)

/-- Tier 2. What a block write of unbricked elements does to memory, the agents' only way to write them: each element
in bounds holds its encoded value afterwards where the elements do not overlap and none is a chain record, and no byte
outside the block's elements changes (R54, R189, R199). A brick written with codes of its format reads back element by
element at the place R39 gives each, with a header that passes the check of R43 for every exponent but 255 (R39, R42,
R43, R48). -/
def Obligations.BlockWrites : Prop :=
  (∀ (s : State) (die agent : Nat) (d : Desc) (o : List Int) (ext : List Nat) (x : List Nat → Nat),
      let t := s.putBlock die agent d o ext x
      let lo : List Nat → Nat := fun p => (d.addr (plus o p)).toNat
      let inside : List Nat → Prop := fun p => p ∈ positions ext ∧ (d.inb (plus o p) = true ∨ d.inPad (plus o p) = true ∧ d.padw = true)
      (∀ a, (∀ p, inside p → a < lo p ∨ lo p + d.unit ≤ a) → t.readByte a = s.readByte a) ∧
      (∀ p, p ∈ positions ext → d.inb (plus o p) = true → d.ty < 4 → d.brick = false → d.legacy = false →
        (∀ q, q ∈ positions ext → q ≠ p → lo q + d.unit ≤ lo p ∨ lo p + d.unit ≤ lo q) →
        (∀ cl k, regionAt s.dev.part (lo p) ≠ some (.chains cl k)) →
        t.readLE (lo p) d.unit = (encodePlain d.ty d.ovf false 0 (x p)).1 % 2 ^ (8 * d.unit))) ∧
  (∀ (s : State) (d : Desc) (off : Int) (hdr : Nat) (codes : List Nat),
      3 ≤ d.ty → d.ty < 8 → codes.length = 256 → (∀ c ∈ codes, c < 2 ^ codeBits d.ty) → hdrE hdr ≠ 255 →
      (d.hdrAddr off + 4 ≤ d.brickAddr off ∨ d.brickAddr off + brickBytes d.ty ≤ d.hdrAddr off) →
        let t := s.putBrick d off hdr codes none
        let h := t.readLE (d.hdrAddr off) 4
        (checkHdr h (brickTag (d.brickAddr off))).1 = 0 ∧ hdrE h = hdrE hdr ∧ hdrZp h = hdrZp hdr ∧
        ∀ r c, r < 16 → c < 16 →
          let p := elemPos d.ty r c
          bits (t.readByte (d.brickAddr off + p.1)).toNat p.2 (codeBits d.ty) = nth 0 codes (16 * r + c))

/-! ### Host interface -/

/-- Tier 2. A taken command is checked in the order of R421, and the first failure decides its status: an opcode that
no row has, BUSY readiness, a session state that does not allow it, an expired session, a SEQ or tag that does not fit
(each without advancing the expected SEQ), then what `permits` finds of principal, life cycle, format and alignment
(after advancing it). A command with a fence that is not the oldest of its queue pair is put aside (R414); one whose
input buffer could not be read ends with PARITY_UNRECOVERED when it would start (R421). While the queue pair can take
none, as during the firmware switch (R433), nothing happens. Each of the 31 host commands that starts (it is taken and
passes every check, or had been put aside and may go on) answers the state that its effect makes of the state in which
it starts; the statements on single commands say which. -/
def Obligations.CommandChecks : Prop :=
  (∀ (c : HostCmd) (i : Instr) (op : Nat) (start : Start) (s : State),
      (i, op, start) ∈ hostRows c → s.heldFor c.qp c.entry = none → s.canTake c.qp = true →
        let q := s.qp c.qp
        let code := fieldAt c.entry 0 1
        let seq := fieldAt c.entry 4 4
        let plain := q.plainParams c.entry
        let early : Nat → Prop := fun st => exec i s = .next ((s.consumed c).finish (c.qp, s.host.nextId) st)
        let allowed : Prop := (q.st = .unbound ∧ (op = 1 ∨ op = 2)) ∨ (q.st = .opening ∧ (op = 1 ∨ op = 3)) ∨
          ((q.st = .active ∨ q.st = .expired) ∧ op ≠ 2 ∧ op ≠ 3)
        let late := (s.taken c).permits q op c.entry (plain.getD []) (fieldAt c.entry 0xC 4) (fieldAt c.entry 0x20 4)
        (opcodes.contains code = false → early 0x0803) ∧
        (code ≠ op → opcodes.contains code = true → exec i s = .next s) ∧
        (code = op →
          (s.host.ready = false → op ≠ 1 → early 0x0801) ∧
          (s.host.ready = true ∨ op = 1 →
            (¬ allowed → early 0x0601) ∧
            (allowed → q.st = .expired → op ≠ 1 → op ≠ 4 → early 0x0602) ∧
            (allowed → (q.st = .active ∨ op = 4 ∧ q.st = .expired) → op ≠ 1 → seq ≠ q.expected ∨ plain = none → early 0x0603) ∧
            (allowed → (op = 1 ∨ op = 2 ∨ op = 3 ∨ (q.st = .active ∨ op = 4) ∧ seq = q.expected ∧ plain ≠ none) →
              (late ≠ 0 → exec i s = .next ((s.taken c).finish (c.qp, s.host.nextId) late)) ∧
              (late = 0 → bit (fieldAt c.entry 1 1) 0 = true → (((s.taken c).closing c).qp c.qp).first s.host.nextId = false →
                exec i s = .next (((s.taken c).closing c).hold (s.callOfEntry c) true)))))) ∧
  (∀ (c : HostCmd) (i : Instr) (op : Nat) (start : Start) (s : State), (i, op, start) ∈ hostRows c →
      (s.heldFor c.qp c.entry = none → s.canTake c.qp = false ∨ s.fw.paused = true → exec i s = .next s) ∧
      (∀ h cmd, s.heldFor c.qp c.entry = some (h, cmd) → fieldAt c.entry 0 1 = op → s.hostReach = true → h.lost = true →
        (h.fence = true → (s.qp c.qp).first h.id = true) →
        exec i s = .next (State.finish { s with host := { s.host with
          held := s.host.held.filter fun x => !(x.qp = c.qp && x.id = h.id) } } (c.qp, h.id) 0x0702)) ∧
      (∀ k t, s.starts c op = some (k, t) → exec i s = .next (start k t)))

/-- Tier 2. A write to SQ_TAIL gives the index after the last submission entry, and one to CQ_HEAD that of the next
completion entry to be read; a doorbell whose value is not below the queue's size is ignored and sets QERR, and so is
one for a queue pair whose EN is 0 (R411). -/
def Obligations.Doorbells : Prop :=
  ∀ (n value : Nat) (s : State),
    let q := s.qp n
    let v := value % 4096
    s.hostReach = true → n < 1024 →
      (q.en = true → v ≤ q.sqSize → exec (.sqTail n value) s = .next (s.setQp n { q with sqTail := v })) ∧
      (q.en = false ∨ q.sqSize < v → exec (.sqTail n value) s = .next (s.setQp n { q with qerr := true })) ∧
      (q.en = true → v ≤ q.cqSize →
        ((∀ c ∈ q.cmds, c.waiting = none) → q.closeTaken = false → exec (.cqHead n value) s = .next (s.setQp n { q with cqHead := v })) ∧
        ∃ t, exec (.cqHead n value) s = .next t ∧ (t.qp n).cqHead = v ∧ (t.qp n).qerr = q.qerr ∧
          ∀ k, k ≠ n → t.qp k = s.qp k) ∧
      (q.en = false ∨ q.cqSize < v → exec (.cqHead n value) s = .next (s.setQp n { q with qerr := true }))

/-- Tier 2. A write to QCFG with EN = 1 takes a DISABLED queue pair to UNBOUND with head and tail 0 and phase 1; while
EN is 1 only SHARE and IEN change; while CLOSING the write is held and its fields stay as they were. A write with EN =
0 makes it CLOSING, and it ends DISABLED, or UNBOUND where a write was held, with no session (R410, R416). -/
def Obligations.QueuePairs : Prop :=
  ∀ (n w : Nat) (s : State),
    let q := s.qp n
    s.hostReach = true → n < 1024 →
      let on := exec (.qpEnable n w) s
      let set : Nat → Nat → Nat → Nat := fun lo len old => if bits w lo len = 0 then old else bits w lo len
      (bit w 0 = true → q.en = false → q.enHeld = false → q.st = .disabled → ∃ t, on = .next t ∧
        (t.qp n).st = .unbound ∧ (t.qp n).en = true ∧ (t.qp n).sqHead = 0 ∧ (t.qp n).sqTail = 0 ∧ (t.qp n).cqHead = 0 ∧
        (t.qp n).cqTail = 0 ∧ (t.qp n).phase = true ∧ (t.qp n).cmds = [] ∧ (t.qp n).sqSize = set 4 12 q.sqSize ∧
        (t.qp n).cqSize = set 16 12 q.cqSize ∧ (t.qp n).vector = bits w 32 11 ∧ (t.qp n).share = set 56 8 q.share ∧
        (t.qp n).ien = bit w 1) ∧
      (bit w 0 = true → q.en = true → q.enHeld = false →
        on = .next (s.setQp n { q with share := set 56 8 q.share, ien := bit w 1 })) ∧
      (bit w 0 = true → q.en = false → q.st = .closing → ∃ t, on = .next t ∧ (t.qp n).enHeld = true ∧ (t.qp n).st = .closing ∧
        (q.enHeld = true → t.qp n = q)) ∧
      (bit w 0 = false → q.en = true → ∃ t, exec (.qpDisable n w) s = .next t ∧
        (t.qp n).st = .closing ∧ (t.qp n).en = false ∧ (s.requests = [] → s.jobs = [] → t.wire = s.wire) ∧
        ∀ h ∈ t.host.held, h.qp ≠ n) ∧
      (bit w 0 = false → q.en = false → ∃ t, exec (.qpDisable n w) s = .next t ∧ (t.qp n).st = q.st ∧ (t.qp n).enHeld = false) ∧
      (q.st ≠ .closing → exec (.qpDisabled n) s = .next s) ∧
      (q.st = .closing → (∀ g, (s.stage g).scrub = none) → (∀ r, s.fw.switching = some r → r.1 ≠ n) →
        ∃ t, exec (.qpDisabled n) s = .next t ∧ (t.qp n).keys = none ∧ (t.qp n).cmds = [] ∧ (t.qp n).enHeld = false ∧
          (t.qp n).st = (if q.enHeld then .unbound else .disabled) ∧ (t.qp n).en = q.enHeld)

/-- Tier 2. The completion of a command that can be posted is one DMA write of 32 bytes at the completion queue's
tail, with its CID, STATUS, the queue pair's SQ head and the current phase; the tail moves on, the phase is inverted
as it wraps to 0, a message becomes due while IEN is 1, and the command is released (R412, R415, R419). In one that is
not keyed the results stand in the clear. While the completion queue is full, the completion of a command waits and
nothing is written; a later event of the command takes its place and keeps TRUNCATED and CANCELLED of the one that
waited (R415). A queue pair that is CLOSING posts no completion and releases the command (R416). -/
def Obligations.CompletionPosted : Prop :=
  (∀ (s : State) (r : CmdRef) (c : Cmd) (status r0 r1 : Nat), s.canPost r c → (s.qp r.1).cqTail ≤ (s.qp r.1).cqSize →
      let q := s.qp r.1
      let t := s.finish r status r0 r1
      ∃ b, t.wire = .dmaWrite (q.cqBase + 32 * q.cqTail) b :: s.wire ∧
        fieldAt b 0 2 = c.cid % 2 ^ 16 ∧ fieldAt b 2 2 = status % 2 ^ 16 ∧ fieldAt b 4 2 = q.sqHead % 2 ^ 16 ∧
        fieldAt b 6 2 = (if q.phase then 0x8000 else 0) ∧
        (c.keyed = false → b.length = 32 ∧ fieldAt b 8 8 = r0 % 2 ^ 64 ∧ fieldAt b 0x10 8 = r1 % 2 ^ 64 ∧ fieldAt b 0x18 8 = 0) ∧
        let q' := t.qp r.1
        q'.cqTail = (q.cqTail + 1) % (q.cqSize + 1) ∧ q'.phase = (if q.cqTail = q.cqSize then !q.phase else q.phase) ∧
        q'.msg = (q.msg || q.ien) ∧ q'.cmds = q.cmds.filter (fun x => x.id ≠ r.2) ∧ s.sameBytes t) ∧
  (∀ (s : State) (r : CmdRef) (c : Cmd) (p : Comp),
      ((s.qp r.1).cmds.find? fun x => x.id = r.2) = some c →
        let q := s.qp r.1
        let t := s.post r p
        (q.st ≠ .closing → q.st ≠ .disabled → q.cqFull = true →
          t.wire = s.wire ∧ ((t.qp r.1).cmds.find? fun x => x.id = r.2) = some { c with waiting := some (match c.waiting with
            | none => p
            | some w => { p with trunc := w.trunc || p.trunc, cancelled := w.cancelled || p.cancelled }) }) ∧
        (q.st = .closing → p.more = false →
          t.wire = s.wire ∧ (t.qp r.1).cmds = q.cmds.filter (fun x => x.id ≠ r.2)))

/-- Tier 2. The four reads with a side effect (DROP_COUNTS_READ, SLOW_COUNTS_READ, UESTAT_READ, ERR_DIE_READ) answer
their register and clear its counters: the drop, slow and update-engine counters of a compute die, and the host error
counters of a die, whose flags stay (R179, R218, R412); a read of the upper half of ERR_DIE alone clears nothing
(R405). A fabric read of a die that the part does not carry completes with no data (R15), and dies in reset answer none
(R499). What other registers of BAR0
and of a compute die read as: GSTS, EVT, TIMESTAMP, QSTS, ERR_GLOBAL; write-only doorbells and undefined offsets read
as 0; VCSR, UECSR, scalar registers and semaphores read what they hold (R8, R152, R404, R409). -/
def Obligations.SideEffectReads : Prop :=
  ∀ (die : Nat) (s : State),
    let d := s.die die
    let gives : Instr → Nat → Die → Prop := fun i x d' => exec i s = .next ((s.send (.readReply (toBytes 8 x))).setDie die d')
    let err := d.hostCorr + d.hostUnrec * 2 ^ 16 + (if d.hostCorrOvf then 2 ^ 32 else 0) +
        (if d.hostUnrecOvf then 2 ^ 33 else 0) + (if d.fenced then 2 ^ 34 else 0) + (if d.proposed then 2 ^ 35 else 0)
    (s.diesRun = true → die < s.dev.part.cds →
      gives (.dropCountsRead die) (nth 0 d.drops 0 + nth 0 d.drops 1 * 2 ^ 16 + nth 0 d.drops 2 * 2 ^ 32 + nth 0 d.drops 3 * 2 ^ 48)
        { d with drops := [0, 0, 0, 0] } ∧
      gives (.slowCountsRead die) (d.legacy + d.narrow * 2 ^ 32) { d with legacy := 0, narrow := 0 } ∧
      gives (.uestatRead die) (d.skipped + d.pubSat * 2 ^ 32) { d with skipped := 0, pubSat := 0 }) ∧
    (s.diesRun = true → die < 64 → s.dev.part.cds ≤ die → ∀ i, i ∈ [Instr.dropCountsRead die, .slowCountsRead die, .uestatRead die] →
      exec i s = .next (s.send (.readReply []))) ∧
    (s.diesRun = false → ∀ i, i ∈ [Instr.dropCountsRead die, .slowCountsRead die, .uestatRead die] → exec i s = .next s) ∧
    (s.hostReach = true → die < 100 →
      gives (.errDieRead ⟨die, 0, 8⟩) err { d with hostCorr := 0, hostUnrec := 0 } ∧
      exec (.errDieRead ⟨die, 0, 4⟩) s = .next ((s.send (.readReply (slice (toBytes 8 err) 0 4))).setDie die { d with hostCorr := 0, hostUnrec := 0 }) ∧
      exec (.errDieRead ⟨die, 4, 4⟩) s = .next (s.send (.readReply (slice (toBytes 8 err) 4 4)))) ∧
    (s.readBar0 0x1008 = (if s.host.ready then 1 else 0) +
        (if s.host.linkWidth ≠ 0 ∧ (s.host.linkWidth < 8 ∨ s.host.linkRate < 16000) then 2 else 0) + (if s.fw.paused then 4 else 0) +
        (if s.degraded then 8 else 0) + s.host.lifecycle * 2 ^ 8 + (if s.fw.staged.isSome then 2 ^ 12 else 0) + s.fw.activeXd * 2 ^ 16 ∧
      s.readBar0 0x1010 = s.host.evt.toNat ∧ s.readBar0 0x1018 = s.now ∧
      (∀ n, n < 1024 → s.readBar0 (0x8000 + 32 * n + 24) = (s.qp n).st.code + (if (s.qp n).qerr then 8 else 0) +
        (s.qp n).sqHead * 2 ^ 8 + (s.qp n).principal * 2 ^ 32) ∧
      (∀ x, s.readBar0 0x20_0000 = x → (x % 2 = 1 ↔ s.host.unrecovered = true) ∧ (x / 2 % 2 = 1 ↔ ∃ k, k < 100 ∧ (s.die k).fenced = true) ∧
        (x / 4 % 2 = 1 ↔ ∃ k, k < 100 ∧ (s.die k).proposed = true) ∧ x < 8) ∧
      ∀ x, (0x1020 ≤ x ∧ x < 0x8000) ∨ (0x1_8100 ≤ x ∧ x < 0x20_0000) → s.readBar0 x = 0) ∧
    (die < s.dev.part.cds → s.readPackage (dieWindow die + 0x1900_0000) =
        some (d.ueFlags + (if d.skipOvf then 2 ^ 8 else 0) + (if d.pubOvf then 2 ^ 9 else 0)) ∧
      ∀ c, c < 16 →
        let k := s.cluster (16 * die + c)
        let w := clusterWindow (16 * die + c) + 0x70_0000
        s.readPackage (w + 0x800) = some (k.flags + k.rm * 2 ^ 8) ∧
        (∀ r, r < 32 → s.readPackage (w + 0x1100 + 8 * r) = some (k.sreg r).toNat) ∧
        (∀ j, j < 64 → s.readPackage (w + 0x2000 + 8 * j) = some (k.sem (2 * j) + k.sem (2 * j + 1) * 2 ^ 32)) ∧
        ∀ t b, t < 3 → b < 64 → s.readPackage (w + 0x200 * t + 8 * b) = some (s.chainOf (16 * die + c) t b).word) ∧
    (∀ a, s.dev.part.cds ≤ die → a = dieWindow die + 0x1900_0000 → s.readPackage a = none)

/-- Tier 2. Register writes of 8 bytes: EVT_CTL takes vector and enable; bits of EVT, QERR, ERR_GLOBAL and the
OVERFLOW bits of ERR_DIE, UECSR and DESC_CTL are cleared by a 1; VCSR takes RM and clears flags by a 1; SEQ_CTL takes
ENTRY; a write to read-only or reserved space changes nothing (R8 to R10, R405), nor does one of another size or
alignment. A 16-byte write of zeros clears a clip statistic and no other byte (R77); in a range that the part does not
populate there is nothing to clear (R15), and the private memory of an update engine is out of reach (R170). Dies in
reset take no write of the fabric (R499). REGISTER_WRITE and CLIP_STATISTIC_CLEAR answer a next state in every one of
these cases. -/
def Obligations.RegisterWrites : Prop :=
  (∀ (v : Nat) (s : State), v < 2 ^ 64 →
      let bar : Nat → Res := fun o => exec (.registerWrite .bar0 o 8 v) s
      let pkg : Nat → Res := fun a => exec (.registerWrite .package a 8 v) s
      (s.hostReach = true →
        bar 0x1000 = .next { s with host := { s.host with evtVector := bits v 16 11, evtIen := bit v 0 } } ∧
        (∃ t, bar 0x1010 = .next t ∧ t = { s with host := { s.host with evt := t.host.evt } } ∧
          ∀ k, k < 6 → t.host.evt.getLsbD k = (s.host.evt.getLsbD k && !bit v k)) ∧
        bar 0x20_0000 = .next { s with host := { s.host with unrecovered := s.host.unrecovered && !bit v 0 } } ∧
        (∀ n, n < 1024 → bar (0x8000 + 32 * n + 24) = .next (s.setQp n { s.qp n with qerr := (s.qp n).qerr && !bit v 3 })) ∧
        (∀ d, d < 100 → bar (0x20_0100 + 8 * d) = .next (s.setDie d { s.die d with
          hostCorrOvf := (s.die d).hostCorrOvf && !bit v 32, hostUnrecOvf := (s.die d).hostUnrecOvf && !bit v 33 })) ∧
        (∀ o, o < 0x1000 → o % 8 = 0 → bar o = .next s) ∧
        (∀ o w, o < 0x200_0000 → ¬ ((w = 8 ∧ o % 8 = 0) ∨ (w = 4 ∧ o % 4 = 0)) → exec (.registerWrite .bar0 o w v) s = .next s)) ∧
      (s.diesRun = true → ∀ die, die < s.dev.part.cds →
        (∃ t, pkg (dieWindow die + 0x1900_0000) = .next t ∧ (∀ k, k ≠ die → t.die k = s.die k) ∧
          (t.die die).ueFlags = (s.die die).ueFlags &&& (31 - v % 32) ∧ (t.die die).skipOvf = ((s.die die).skipOvf && !bit v 8) ∧
          (t.die die).pubOvf = ((s.die die).pubOvf && !bit v 9)) ∧
        ∀ c, c < 16 →
          let cl := 16 * die + c
          let k := s.cluster cl
          pkg (clusterWindow cl + 0x70_0800) = .next (s.setCluster cl { k with rm := bits v 8 2, flags := k.flags &&& (31 - v % 32) }) ∧
          pkg (clusterWindow cl + 0x70_1000) = .next (s.setCluster cl { k with entryReg := bits v 32 4 }) ∧
          pkg (clusterWindow cl + 0x70_1008) = .next (s.setCluster cl { k with semOvf := k.semOvf && !bit v 3 }))) ∧
  (∀ (addr : Nat) (s : State),
      let at_ := regionAt s.dev.part (addr + 0x30 : Nat)
      let here : Prop := at_.isSome = true ∧ ∀ die, at_ ≠ some (.ue die)
      (s.diesRun = true → here → ∃ t, exec (.clipStatisticClear addr) s = .next t ∧
        (∀ k, 0x30 ≤ k → k < 0x40 → t.readByte (addr + k) = 0) ∧
        (∀ a, a < addr + 0x30 ∨ addr + 0x40 ≤ a → t.readByte a = s.readByte a)) ∧
      (s.diesRun = false ∨ ¬ here → exec (.clipStatisticClear addr) s = .next s))

/-- Tier 2. Until the configuration-ready time (counted from PERST# or from 100 ms after SUPPLY_VALID; its length is
free, log 17) every configuration request gets Request Retry Status; then dword 0 reads vendor and device ID, the
Device Serial Number capability, wherever it stands, reads SERIAL, and a write of BAR0 keeps its size of 32 MiB (R402,
R403, R407). A request to BAR0 of a size or alignment that the function does not take is logged; a read, and a request
outside BAR0, completes with Unsupported Request (R405). A message that is due is sent to the address and with the
data of its vector, or sets the vector's pending bit while the vector or the function is masked or MSI-X is off (log
5); it covers all that was due, and the event message goes only while EVT_CTL.IEN is 1 (R412). CONFIGURATION_REQUEST,
BAR0_UNSUPPORTED_REQUEST and MSIX_MESSAGE answer a next state in each of these cases. -/
def Obligations.ConfigurationAndRefusals : Prop :=
  (∀ (s : State), s.hostReach = true →
      (s.power.perst = true ∨ s.now < s.power.perstAt + Config.cfgReadyTime.val → ∀ write offset size value, 0 < size → offset % 4 + size ≤ 4 → offset < 4096 →
        exec (.configurationRequest write offset size value) s = .next (s.send .retryStatus)) ∧
      (s.power.perst = false → s.power.perstAt + Config.cfgReadyTime.val ≤ s.now →
        (∀ value, exec (.configurationRequest false 0 4 value) s = .next ({ s with draws := s.draws + 1 }.send
          (.configReply (Config.vendorId.toNat + (if s.dev.part = Part.lg100 then 0x4C10 else 0x4C11) * 2 ^ 16)))) ∧
        (∀ k value, (k, (⟨true, 3, 3⟩ : Capability)) ∈ capMap →
          exec (.configurationRequest false (4 * (k + 1)) 4 value) s =
            .next (({ s with draws := s.draws + 1 } : State).send (.configReply (s.dev.serial % 2 ^ 32))) ∧
          exec (.configurationRequest false (4 * (k + 2)) 4 value) s =
            .next (({ s with draws := s.draws + 1 } : State).send (.configReply (s.dev.serial / 2 ^ 32 % 2 ^ 32)))) ∧
        (∀ value, value < 2 ^ 32 → ∃ t, exec (.configurationRequest true 0x10 4 value) s = .next t ∧
          t.host.bar0 = s.host.bar0 / 2 ^ 32 * 2 ^ 32 + value / 2 ^ 25 * 2 ^ 25 ∧ t.host.cfgCommand = s.host.cfgCommand)) ∧
      (∀ write addr size,
        let inside : Prop := s.host.bar0 ≤ addr ∧ addr + size ≤ s.host.bar0 + 0x200_0000
        let fits : Prop := (size = 4 ∨ size = 8) ∧ addr % size = 0
        let t := { s with host := { s.host with aer := s.host.aer + 1 } }
        (inside ∧ fits → exec (.bar0UnsupportedRequest write addr size) s = .next s) ∧
        (¬ (inside ∧ fits) → (write = true ∧ inside → exec (.bar0UnsupportedRequest write addr size) s = .next t) ∧
          (¬ (write = true ∧ inside) → exec (.bar0UnsupportedRequest write addr size) s = .next (t.send .unsupportedRequest))))) ∧
  (∀ (s : State), s.hostReach = true →
      let w : Nat → Nat := fun k => (s.msixWord k).toNat
      let gives : Instr → State → Nat → Prop := fun i t v =>
        (s.host.msixControl = 2 ∧ w (4 * v + 3) % 2 = 0 → exec i s = .next (t.send (.msix (w (4 * v) + 2 ^ 32 * w (4 * v + 1)) (w (4 * v + 2))))) ∧
        (s.host.msixControl ≠ 2 ∨ w (4 * v + 3) % 2 = 1 → ∃ u, exec i s = .next u ∧ u.wire = s.wire ∧ ∀ x, x ∈ u.host.pba ↔ x = v ∨ x ∈ s.host.pba)
      (∀ n, (s.qp n).msg = true → gives (.msixMessage (.queuePair n)) (s.setQp n { s.qp n with msg := false }) (s.qp n).vector) ∧
      (s.host.evtMsg = true → s.host.evtIen = true → gives (.msixMessage .moduleEvent) { s with host := { s.host with evtMsg := false } } s.host.evtVector) ∧
      (∀ n, (s.qp n).msg = false → exec (.msixMessage (.queuePair n)) s = .next s) ∧
      (s.host.evtMsg = false ∨ s.host.evtIen = false → exec (.msixMessage .moduleEvent) s = .next s))

/-! ### Sessions, reports and administration -/

/-- Tier 2. IDENTIFY writes 512 bytes with the identity registers and, unless RETIRED has destroyed it, the device's
public key; ERRLOG_READ writes the 576-byte record of a die, header and entries newest first; TELEMETRY_READ writes
the mirror, a route's or ring's status, or SERVICE_DEGRADED, and refuses a stage that is not rigged (R413, R422, R432,
R479, R481). ATTEST with room for the report writes it signed by the device identity key over its bytes 0 to 0x51F,
with the caller's principal, the module epoch, the serial number and the nonce, and binds the session to the stage
epochs it shows; without room it fails with DESC_TYPE and the length needed (R458 to R460). -/
def Obligations.ReadCommands : Prop :=
  (∀ (c : HostCmd) (s : State),
      s.answers (.identify c) c 0x01 (fun k t u => ∃ b, u = (t.result k false b).finish k.ref 0 ∧ b.length = 512 ∧
        fieldAt b 8 8 = 2 ^ t.dev.part.cds - 1 ∧ fieldAt b 0x18 2 = 1024 ∧ fieldAt b 0x20 8 = t.fw.control % 2 ^ 64 ∧
        fieldAt b 0x28 8 = t.fw.sched % 2 ^ 64 ∧ fieldAt b 0x30 8 = t.dev.serial % 2 ^ 64 ∧
        (t.dev.seedReadable = false → fieldAt b 0x100 96 = 0) ∧
        (t.dev.seedReadable = true → fieldAt b 0x100 48 = (Crypto.publicKey t.dev.identityKey).1 % 2 ^ 384 ∧
          fieldAt b 0x130 48 = (Crypto.publicKey t.dev.identityKey).2 % 2 ^ 384)) ∧
      s.answers (.errlogRead c) c 0x51 (fun k t u => ∃ b, u = (t.result k false b).finish k.ref 0 ∧
        let d := t.die (k.arg 0 1)
        b.length = 576 ∧ fieldAt b 0 1 = k.arg 0 1 % 256 ∧ fieldAt b 1 1 = d.log.length % 256 ∧ fieldAt b 4 4 = d.correctable % 2 ^ 32 ∧
        fieldAt b 8 4 = d.unrecovered % 2 ^ 32 ∧ fieldAt b 0xC 4 = d.formatReserved % 2 ^ 32 ∧
        fieldAt b 0x10 4 = d.epochStale % 2 ^ 32 ∧ fieldAt b 0x14 4 = d.poisoned % 2 ^ 32 ∧ fieldAt b 0x20 8 = t.now % 2 ^ 64 ∧
        ∀ j e, j < 16 → d.log[j]? = some e → slice b (0x40 + 32 * j) 32 = e.bytes) ∧
      s.answers (.telemetryRead c) c 0x52 (fun k t u =>
        let g := t.stage (k.arg 8 1)
        (k.arg 0 1 = 0 → ∃ b, u = (t.result k false b).finish k.ref 0 ∧ b.length = 64 ∧
          fieldAt b 0 8 = t.thermal.sampleTime % 2 ^ 64 ∧ fieldAt b 8 4 = t.thermal.inputMw % 2 ^ 32 ∧
          fieldAt b 0xC 4 = t.thermal.inputMv % 2 ^ 32 ∧
          ∀ q, q < 4 → fieldAt b (0x10 + 8 * q) 2 = nth 0 t.thermal.mirrorTj q % 2 ^ 16) ∧
        (k.arg 0 1 = 2 → (g.st = 0 → u = t.finish k.ref 0x0501) ∧ (g.st = 1 → u = t.finish k.ref 0x0502) ∧
          (2 ≤ g.st → ∀ r, g.ins[k.arg 9 1]? = some r → ∃ b, u = (t.result k false b).finish k.ref 0 ∧
            fieldAt b 0 4 = r.written % 2 ^ 32 ∧ fieldAt b 4 4 = r.stale % 2 ^ 32 ∧ fieldAt b 8 4 = r.gone % 2 ^ 32 ∧
            fieldAt b 0xC 4 = r.tagFails % 2 ^ 32)) ∧
        (k.arg 0 1 = 1 → t.resolve k.principal (k.arg 4 4) none ≠ 0 →
          u = t.finish k.ref (t.resolve k.principal (k.arg 4 4) none)) ∧
        (k.arg 0 1 = 1 → t.resolve k.principal (k.arg 4 4) none = 0 →
          let r := (t.job (handleIdx (k.arg 4 4))).bind Job.member
          (r = none → u = t.finish k.ref 0x0302) ∧
          (∀ m, r = some m → ∃ b, u = (t.result k true b).finish k.ref 0 ∧ b.length = 64 ∧ fieldAt b 0 4 = m.stat.xnum % 2 ^ 32 ∧
            fieldAt b 4 2 = m.slot % 2 ^ 16 ∧ fieldAt b 6 2 = m.members % 2 ^ 16 ∧ fieldAt b 8 4 = m.stat.absent % 2 ^ 32 ∧
            fieldAt b 0xC 4 = m.stat.late % 2 ^ 32 ∧ fieldAt b 0x10 4 = m.stat.escal % 2 ^ 32 ∧ fieldAt b 0x14 4 = m.stat.under % 2 ^ 32 ∧
            fieldAt b 0x18 4 = m.stat.owned % 2 ^ 32 ∧ fieldAt b 0x1C 4 = m.stat.frozen % 2 ^ 32 ∧
            fieldAt b 0x20 4 = m.stat.tagFails % 2 ^ 32 ∧ fieldAt b 0x24 2 = m.stat.lost % 2 ^ 16 ∧
            fieldAt b 0x26 2 = m.stat.wraps % 2 ^ 16 ∧ fieldAt b 0x28 2 = m.stat.lastCause % 2 ^ 16)) ∧
        (k.arg 0 1 = 3 → ∃ x, u = (t.result k (t.kindOf k.principal = 4) (toBytes 8 x)).finish k.ref 0 ∧
          (x = 1 ↔ ∃ y ∈ t.thermal.t, 0 < y) ∧ x ≤ 1))) ∧
  (∀ (c : HostCmd) (s : State),
      s.answers (.attest c) c 0x08 (fun k t u =>
        let len := 0x584 + Config.certLen.val
        (k.rlen < len → u = t.finish k.ref 0x0104 len) ∧
        (len ≤ k.rlen → ∃ b x, b.length = 0x520 ∧
          fieldAt b 0xC 4 = k.principal % 2 ^ 32 ∧ fieldAt b 0x10 8 = t.moduleEpoch % 2 ^ 64 ∧ fieldAt b 0x18 8 = t.now % 2 ^ 64 ∧
          fieldAt b 0x20 8 = t.dev.serial % 2 ^ 64 ∧ slice b 0x30 48 = slice k.params 0 48 ∧
          (∀ g, g < 16 → fieldAt b (0x120 + 64 * g) 1 = (t.stage g).st % 256 ∧ fieldAt b (0x124 + 64 * g) 4 = (t.stage g).epoch % 2 ^ 32) ∧
          (let sig := Crypto.ecdsaSign t.dev.identityKey (Crypto.sha384 b) (leNat ((List.range 48).map (Config.rng t.draws)))
           x = ({ t with draws := t.draws + 1 } : State).result k false
            (b ++ toBytes 48 sig.1 ++ toBytes 48 sig.2 ++ toBytes 4 Config.certLen.val ++ certificate)) ∧
          u = (x.setQp k.qp { x.qp k.qp with bound := some ((List.range 16).map fun g => (t.stage g).epoch) }).finish k.ref 0 len)))

/-- Tier 2. OPEN_SESSION draws a device nonce, writes it, and makes the queue pair OPENING; AUTH with the right code
of an enrolled principal that is not blocked opens the session, with keys and an expected SEQ of 1, and any other
fails with AUTH_FAIL and leaves the queue pair UNBOUND; in both the nonces are gone (R451, R452). One that a fence has
held until the queue pair is in another state fails in that state (R421 step 3). The eighth failed
AUTH for a PRINCIPAL value within 60 s blocks the value for 60 s; earlier ones are counted, and those of other values
are not touched (R452). That a refusal by the block counts no further failure is the model's reading, log 33. -/
def Obligations.SessionsOpen : Prop :=
  (∀ (c : HostCmd) (s : State),
      s.answers (.openSession c) c 0x02 (fun k t u => if (t.qp k.qp).st ≠ .unbound then u = t.finish k.ref 0x0601 else
        let n := (List.range 32).map (Config.rng t.draws)
        let x : State := { t with draws := t.draws + 1 }
        u = ((x.setQp k.qp { x.qp k.qp with st := .opening, openPrincipal := k.arg 0 4, hostNonce := slice k.params 0x10 32, devNonce := n }).result
          k false n).finish k.ref 0) ∧
      s.answers (.auth c) c 0x03 (fun k t u => if (t.qp k.qp).st ≠ .opening then u = t.finish k.ref 0x0601 else
        let q := t.qp k.qp
        let p := q.openPrincipal
        let good : Principal → Prop := fun x => t.now ≥ Table.get 0 t.store.authBlock p ∧
          Crypto.hmac x.access (t.authMessage p k.qp) = slice k.params 0 48
        (∀ x, Table.find t.store.principals p = some x → good x → u = (t.setQp k.qp { q with
          openPrincipal := 0, hostNonce := [], devNonce := [], st := .active, principal := p
          keys := some (q.sessionKeys x.access p k.qp), expected := 1, authTime := t.now, bound := none }).finish k.ref 0) ∧
        ((∀ x, Table.find t.store.principals p = some x → ¬ good x) → u = ((t.authFailed p).setQp k.qp { q with
          openPrincipal := 0, hostNonce := [], devNonce := [], st := .unbound }).finish k.ref 0x0601))) ∧
  (∀ (s : State) (p : Nat),
      let recent := (Table.get [] s.store.authFails p).filter fun t => s.now - t < 60000000000
      let t := s.authFailed p
      (s.authBlocked p = true → t = s) ∧
      (s.authBlocked p = false → 7 ≤ recent.length → Table.get 0 t.store.authBlock p = s.now + 60000000000 ∧
        Table.get [] t.store.authFails p = []) ∧
      (s.authBlocked p = false → recent.length < 7 → Table.get [] t.store.authFails p = s.now :: recent ∧
        t.store.authBlock = s.store.authBlock) ∧
      (∀ q, q ≠ p → Table.get [] t.store.authFails q = Table.get [] s.store.authFails q ∧
        Table.get 0 t.store.authBlock q = Table.get 0 s.store.authBlock q))

/-- Tier 2. CLOSE_SESSION ends the session's work, and its completion comes after every other one of the session, with
the queue pair UNBOUND and its keys gone (R425). A session expires after its time (R424). A failed read of a
submission entry is tried up to three more times and then stops the queue pair with QERR; one of an input buffer ends
the command with PARITY_UNRECOVERED once it passes its checks, at once or, behind a fence, when it would start (R421).
RESULT0 of CLOSE_SESSION counts the requests that end with it and those that a fence had put aside. SESSION_EXPIRY and
HOST_DMA_READ_FAILURE answer a next state in each of these cases. -/
def Obligations.SessionsEnd : Prop :=
  ∀ (c : HostCmd) (s : State),
    s.answers (.closeSession c) c 0x04 (fun k t u =>
      u = (t.endWork k.qp true).finish k.ref 0 ((t.requests.filter fun r => r.cmd.1 = k.qp && !r.cancel && !t.inStep r).length +
        (t.host.held.filter fun h => h.qp = k.qp && h.opcode = 0x30).length) ∧
      ∀ x, t.requests = [] → t.jobs = [] → t.host.held = [] → (t.qp k.qp).cmds = [x] → x.id = k.id → x.opcode = 4 → x.waiting = none →
        (t.qp k.qp).closeTaken = true → (t.qp k.qp).cqFull = false → ((t.qp k.qp).st = .active ∨ (t.qp k.qp).st = .expired) →
          (u.qp k.qp).st = .unbound ∧ (u.qp k.qp).keys = none ∧ (u.qp k.qp).principal = 0 ∧ (u.qp k.qp).cmds = [] ∧
          ∃ b, u.wire = .dmaWrite ((t.qp k.qp).cqBase + 32 * (t.qp k.qp).cqTail) b :: t.wire) ∧
    (∀ n, (s.qp n).st = .active → exec (.sessionExpiry n) s = .next (s.setQp n { s.qp n with st := .expired })) ∧
    (∀ n, (s.qp n).st ≠ .active → exec (.sessionExpiry n) s = .next s) ∧
    (s.canTake c.qp = true →
      let q := s.qp c.qp
      (q.fetchFails < 3 → exec (.hostDmaReadFailure true c) s = .next (s.setQp c.qp { q with fetchFails := q.fetchFails + 1 })) ∧
      (3 ≤ q.fetchFails → exec (.hostDmaReadFailure true c) s = .next (s.setQp c.qp { q with qerr := true, stopped := true })) ∧
      (fieldAt c.entry 0xC 4 ≠ 0 → opcodes.contains (fieldAt c.entry 0 1) = true →
        exec (.hostDmaReadFailure false c) s = .next (s.take c.qp c.entry [] true fun _ t => t) ∧
        (s.host.ready = true ∨ fieldAt c.entry 0 1 = 1 →
          q.admits (fieldAt c.entry 0 1) (fieldAt c.entry 4 4) (q.plainParams c.entry) = 0 →
          (s.taken c).permits q (fieldAt c.entry 0 1) c.entry ((q.plainParams c.entry).getD []) (fieldAt c.entry 0xC 4)
            (fieldAt c.entry 0x20 4) = 0 →
          let t := (s.taken c).closing c
          let behind : Bool := bit (fieldAt c.entry 1 1) 0 && !(t.qp c.qp).first s.host.nextId
          (behind = false → exec (.hostDmaReadFailure false c) s = .next (t.finish (c.qp, s.host.nextId) 0x0702)) ∧
          (behind = true → ∃ k : Call, k.ref = (c.qp, s.host.nextId) ∧
            exec (.hostDmaReadFailure false c) s = .next (t.hold k true true)))))

/-- Tier 2. RESET and the resets of the module (R493, R497 to R500): READY falls and a wipe runs; every session,
request, stage and cluster is gone, the host link is down and memory reads as zeros; the life-cycle state, the
enrolled principals and the fuses stay; the boot counter rises. A warm reset keeps the module timestamp, a cold one
starts it at 0; without supply nothing runs. That memory reads as zeros from the start of the wipe is the model's
choice (log 38). A function reset puts configuration space and the BAR0 registers, the telemetry mirror among them, at
their reset values and closes every session; where no queue pair is enabled or closing it leaves memory, stages,
power, logs and the READY state (R408); a warm reset does the same to the mirror. RESET, SUPPLY_VALID_ASSERT,
SUPPLY_VALID_DEASSERT and FUNCTION_RESET answer a next state wherever they take effect. -/
def Obligations.Resets : Prop :=
  (∀ (s : State),
      let cleared : State → Prop := fun t => t.host.ready = false ∧ t.mem = [] ∧ t.stages = [] ∧ t.clusters = [] ∧ t.requests = [] ∧
        t.jobs = [] ∧ t.host.qps = [] ∧ t.costumes.dir = [] ∧ t.signals = [] ∧ t.storage.enumerated = false ∧
        t.host.lifecycle = s.host.lifecycle ∧ t.store.principals = s.store.principals ∧ t.store.counters = s.store.counters ∧
        t.thermal.sampleTime = 0 ∧ t.thermal.inputMv = 0 ∧ t.thermal.inputMw = 0 ∧ t.fw.paused = false ∧
        t.host.linkWidth = 0 ∧ t.host.linkRate = 0 ∧
        t.dev = s.dev ∧ t.fw.staged = none ∧ t.thermal.calInForce = s.thermal.calStored ∧ t.keyGen ≠ s.keyGen ∧ t.stg = []
      (∀ c, s.answers (.reset c) c 0x05 fun _ t u => u = t.warmReset) ∧
      (cleared s.warmReset ∧ s.warmReset.power.phase = .warmWipe ∧ s.warmReset.now = s.now ∧
        s.warmReset.power.bootCounter = s.power.bootCounter + 1 ∧ (s.warmReset.die 99).log = (s.die 99).log ∧
        ∀ d, d ≠ 99 → s.warmReset.die d = Die.init) ∧
      (s.power.supplyValid = false → s.power.converters = true → ∃ t, exec .supplyValidAssert s = .next t ∧ cleared t ∧
        t.power.phase = .coldWipe ∧ t.now = 0 ∧ t.power.supplyValid = true ∧ t.power.tripLatched = false ∧ t.dies = []) ∧
      (s.power.supplyValid = true → ∃ t, exec .supplyValidDeassert s = .next t ∧ cleared t ∧ t.power.phase = .off ∧
        t.power.supplyValid = false)) ∧
  (∀ (kind : Nat) (s : State), s.hostReach = true → kind < 3 →
      ∃ t, exec (.functionReset kind) s = .next t ∧ t.host.qps = [] ∧ t.host.bar0 = 0 ∧ t.host.cfgCommand = 0 ∧ t.host.evt = 0 ∧
        t.host.msix = [] ∧ t.host.pba = [] ∧ t.host.evtIen = false ∧ t.host.unrecovered = false ∧
        t.host.msixControl = 0 ∧ t.host.pmState = 0 ∧ t.host.aer = 0 ∧
        t.thermal.sampleTime = 0 ∧ t.thermal.inputMv = 0 ∧ t.thermal.inputMw = 0 ∧ t.thermal.powerW = [0, 0, 0, 0] ∧
        (∀ d, (t.die d).hostCorr = 0 ∧ (t.die d).hostUnrec = 0) ∧
        ((∀ n, (s.qp n).en = false ∧ (s.qp n).st ≠ .closing) → s.sameBytes t ∧ t.stages = s.stages ∧ t.power = s.power ∧ t.host.ready = s.host.ready ∧
          t.host.lifecycle = s.host.lifecycle ∧ ∀ d, (t.die d).correctable = (s.die d).correctable ∧ (t.die d).log = (s.die d).log))

/-- Tier 2. The end of the wipe leaves the stages of the default image RIGGING, until its rig has brought them to READY
(R494); READY of the module follows at the next clock (log 9). MOD_EN and PERST# as R500, R515, R516 and
R528 give them: MOD_EN low stops the converters, MOD_EN high starts them unless a trip is latched, PERST# asserted
begins a warm reset of a running module, and deasserted trains the link, whose width and rate GSTS.LINK_DEGRADED
follows, and starts the configuration-ready time, no earlier than 100 ms after SUPPLY_VALID (R404, R407).
HARDWARE_WIPE_COMPLETE, MOD_EN_HIGH, MOD_EN_LOW, PERST_ASSERT and PERST_DEASSERT answer a next state wherever they
take effect. -/
def Obligations.PowerPins : Prop :=
  ∀ (s : State),
    (s.power.phase = .coldWipe ∨ s.power.phase = .warmWipe ∨ s.power.phase = .lifeWipe →
      ∃ t, exec .hardwareWipeComplete s = .next t ∧ t.power.phase = .running ∧ t.host = s.host ∧ s.sameBytes t ∧
        (t.power.defaultRig = true ↔ s.defaultStages ≠ []) ∧ (∀ g ∈ s.defaultStages, t.stage g = { s.stage g with st := 1 }) ∧
        ∀ g, g ∉ s.defaultStages → t.stage g = s.stage g) ∧
    (s.power.phase = .running ∨ s.power.phase = .off → exec .hardwareWipeComplete s = .next s) ∧
    (s.power.modEn = true → exec .modEnLow s = .next { s with power := { s.power with modEn := false, converters := false } }) ∧
    (∀ low, s.power.modEn = false → exec (.modEnHigh low) s =
      .next { s with power := { s.power with modEn := true, converters := !s.power.tripLatched || low } }) ∧
    (s.power.perst = false →
      let p : State := { s with power := { s.power with perst := true }, host := { s.host with linkWidth := 0, linkRate := 0 } }
      (s.power.phase = .running ∨ s.power.phase = .lifeWipe → exec .perstAssert s = .next p.warmReset) ∧
      (s.power.phase ≠ .running → s.power.phase ≠ .lifeWipe → exec .perstAssert s = .next p)) ∧
    (s.power.perst = true → s.power.supplyValid = false →
      exec .perstDeassert s = .next { s with power := { s.power with perst := false, perstAt := max s.now 100000000 } }) ∧
    (s.power.perst = true → s.power.supplyValid = true → ∃ t, exec .perstDeassert s = .next t ∧ t = { s with
      power := { s.power with perst := false, perstAt := max s.now 100000000 }
      host := { s.host with linkWidth := t.host.linkWidth, linkRate := t.host.linkRate }
      draws := s.draws + 1 } ∧
      t.host.linkWidth ∈ [1, 2, 4, 8, 16] ∧ t.host.linkRate ∈ [2500, 5000, 8000, 16000, 32000, 64000] ∧
      (t.linkDegraded = true ↔ t.host.linkWidth < 8 ∨ t.host.linkRate < 16000)) ∧
    (s.power.perst = false → exec .perstDeassert s = .next s)

/-- Tier 2. FW_STAGE takes an image whose signature, header, target and security version pass, and announces it in EVT
and the module epoch; a bad signature or version is VERIFY_FAIL; one taken behind an FW_ACTIVATE that is in progress
waits. FW_ACTIVATE without a staged image is NOT_READY and counts in the module epoch (R458); behind another, or
behind a rig, it waits (R397); otherwise the standby restarts, its error log and counters empty (R480), then intake
pauses, then it switches; a standby that does not come up before intake pauses ends it with NOT_READY and the running
image kept (R433, R434, R450, R501). DESC_TYPE for a header that does not fit, and that the row presented three times
stands for these moments, are the model's choices (log 34, log 32). -/
def Obligations.FirmwareUpdates : Prop :=
  ∀ (c : HostCmd) (s : State),
    s.answers (.fwStage c) c 0x60 (fun k t u => if t.activating k.id then u = t.hold k false else
      let b := k.data
      let n := fieldAt b 0x18 4
      let target := fieldAt b 4 1 % 2
      let signed : Prop := Crypto.ecdsaVerify t.dev.vendorX t.dev.vendorY (Crypto.sha384 (b.take (64 + n))) (fieldAt b (64 + n) 48) (fieldAt b (112 + n) 48) = true
      (b.length < 160 + n → u = t.finish k.ref 0x0104) ∧
      (160 + n ≤ b.length → ¬ signed → u = t.finish k.ref 0x0603) ∧
      (160 + n ≤ b.length → signed → fwHeaderOk b = false → u = t.finish k.ref 0x0104) ∧
      (160 + n ≤ b.length → signed → fwHeaderOk b = true → (target ≠ k.arg 0 1 ∨ fieldAt b 8 4 < nth 0 t.dev.minSvn target) → u = t.finish k.ref 0x0603) ∧
      (160 + n ≤ b.length → signed → fwHeaderOk b = true → target = k.arg 0 1 → nth 0 t.dev.minSvn target ≤ fieldAt b 8 4 →
        ∃ x : State, u = x.finish k.ref 0 ∧ (x.fw.staged.map (·.version)) = some (fieldAt b 0x10 8) ∧ (x.fw.staged.map (·.target)) = some target ∧
          x.fw.control = t.fw.control ∧ x.fw.sched = t.fw.sched ∧ x.power.epochEvents = (t.power.epochEvents + 1) % 2 ^ 32)) ∧
    s.answers (.fwActivate c) c 0x61 (fun k t u =>
      (t.fw.switching = some k.ref → t.fw.paused = false → u = ({ t with fw := { t.fw with paused := true } } : State).hold k false) ∧
      (∀ i, t.fw.switching = some k.ref → t.fw.paused = true → t.fw.staged = some i → ∃ x : State, u = x.finish k.ref 0 ∧ x.fw.staged = none ∧ x.fw.switching = none ∧ x.fw.paused = false ∧
        x.fw.activeXd = 1 - t.fw.activeXd ∧ x.fw.control = (if i.target = 0 then i.version else t.fw.control) ∧
        x.fw.sched = (if i.target = 0 then t.fw.sched else i.version)) ∧
      (t.fw.switching ≠ some k.ref → t.activating k.id = true → u = t.hold k false) ∧
      (t.activating k.id = false → t.fw.staged = none → u = (t.epochEvents 1).finish k.ref 0x0801) ∧
      (t.activating k.id = false → t.fw.staged ≠ none → t.rig.isSome = true ∨ t.power.defaultRig = true → u = t.hold k false) ∧
      (t.activating k.id = false → t.fw.staged ≠ none → t.rig = none → t.power.defaultRig = false → ∃ x : State,
        u = x.hold k false ∧ x.fw = { t.fw with switching := some k.ref, paused := false } ∧
          (∀ d, d ≠ 96 + (1 - t.fw.activeXd) → x.die d = t.die d) ∧
          ((t.die (96 + (1 - t.fw.activeXd))).fenced = false → (x.die (96 + (1 - t.fw.activeXd))).log = [] ∧ (x.die (96 + (1 - t.fw.activeXd))).correctable = 0))) ∧
    (s.fw.paused = true → exec .fwSwitchTimeout s = .next s) ∧
    (∀ r, s.fw.switching = some r → s.fw.paused = false → ∃ x : State, exec .fwSwitchTimeout s = .next (x.finish r 0x0801) ∧ x.fw = { s.fw with switching := none }) ∧
    (s.fw.switching = none → exec .fwSwitchTimeout s = .next s)

/-- Tier 2. LIFECYCLE_SET accepts only a transition of Table Life-cycle transitions that its principal may request,
and an accepted one then takes effect with a wipe: sessions, stages, costumes and memory are gone, and RETIRED
destroys the principals and the keys (R436, R461, R462); J_TEST is enabled in TEST and MAINTENANCE alone (R520).
LIFECYCLE_TRANSITION, ENROL, REPLACE, REMOVE and MODEL_KEY answer a next state wherever they take effect.
CALIBRATION_WRITE stores a record that passes R508 and refuses any other. That a second LIFECYCLE_SET takes the place
of the first is the model's choice (log 34), and which statuses malformed records get its reading (log 47). The four
records of the management controller (R443 to R445): a RETIRED module, a form, a signature, COUNTER or wrapping that
fails, and a check of the ACTION that fails are answered with their status and change nothing. An accepted record
counts its signer's COUNTER; ENROL adds its principal, REPLACE gives it new keys and ends its sessions, REMOVE takes
it out for good with its model keys, and MODEL_KEY stores the key of a model. A record that comes during a life-cycle
transition waits for READY (R468); the port answers from 150 ms after SUPPLY_VALID (R518). A transition begins once
the completion of its command has been posted (R436). -/
def Obligations.LifeCycle : Prop :=
  (∀ (c : HostCmd) (s : State),
      s.answers (.lifecycleSet c) c 0x70 (fun k t u =>
        let kind := t.kindOf k.principal
        let now := t.host.lifecycle
        let target := k.arg 0 1
        let allowed : Prop := (now = 0 ∧ target = 1 ∧ kind = 1 ∧ ∃ p ∈ t.store.principals, p.2.kind = 3) ∨ (now = 1 ∧ target = 2 ∧ kind = 3) ∨
          (now = 2 ∧ target = 3 ∧ kind = 3) ∨ (now = 3 ∧ target = 2 ∧ kind = 3) ∨ (now = 3 ∧ target = 4 ∧ (kind = 3 ∨ kind = 1))
        (allowed → u = ({ t with host := { t.host with lifeTarget := some target } } : State).finish k.ref 0) ∧
        (¬ allowed → u = t.finish k.ref 0x0604)) ∧
      (∀ target, s.host.lifeTarget = some target → s.power.phase ≠ .running ∨ s.lifePosted = false → exec .lifecycleTransition s = .next s) ∧
      (∀ target, s.host.lifeTarget = some target → s.power.phase = .running → s.lifePosted = true →
        ∃ t, exec .lifecycleTransition s = .next t ∧ t.host.lifecycle = target ∧ t.host.lifeTarget = none ∧ t.host.ready = false ∧
          t.rig = none ∧ (t.testPort = true ↔ s.power.supplyValid = true ∧ (target = 0 ∨ target = 3)) ∧
          t.power.phase = .lifeWipe ∧ t.mem = [] ∧ t.requests = [] ∧ t.jobs = [] ∧ t.costumes.dir = [] ∧ t.fw.staged = none ∧
          (∀ g, (t.stage g).st = 0 ∧ (t.stage g).epoch = (s.stage g).epoch) ∧
          (∀ n, (t.qp n).keys = none ∨ (s.qp n).st = .disabled ∨ (s.qp n).st = .closing) ∧
          (target = 4 → t.store.principals = [] ∧ t.store.modelKeys = [] ∧ t.dev.seedReadable = false) ∧
          (target ≠ 4 → s.host.lifecycle ≠ 0 → t.store = s.store)) ∧
      (s.host.lifeTarget = none → exec .lifecycleTransition s = .next s) ∧
      s.answers (.calibrationWrite c) c 0x71 (fun k t u =>
        (t.dev.calOk k.data = true → u = ({ t with thermal := { t.thermal with calStored := k.data } } : State).finish k.ref 0) ∧
        (t.dev.calOk k.data = false → u = t.finish k.ref 0x0104))) ∧
  (∀ (i : Instr) (action : Nat) (status : State → Nat) (b : Bytes) (s : State),
      (i, action, status) ∈ [(Instr.enrol b, 1, fun s : State => s.enrolStatus b), (.replace b, 2, fun s => s.replaceStatus b),
        (.remove b, 3, fun s => s.removeStatus b), (.modelKey b, 4, fun s => s.modelKeyStatus b)] →
      s.portAnswers = true → fieldAt b 6 1 = action →
        (s.power.phase = .lifeWipe ∨ (s.power.phase = .running ∧ s.host.ready = false) →
          exec i s = .next { s with records := s.records ++ [b] }) ∧
        (s.power.phase ≠ .lifeWipe → (s.power.phase = .running → s.host.ready = true) →
        let answer : Nat → Prop := fun st => exec i s = .next (s.send (.recordStatus st))
        let p := recPrincipal b
        (s.host.lifecycle = 4 → answer 0x0604) ∧
        (s.host.lifecycle ≠ 4 → s.recordForm b = false → answer 0x0104) ∧
        (s.host.lifecycle ≠ 4 → s.recordForm b = true → s.recordSecret b = none → answer 0x0601) ∧
        (∀ x, s.host.lifecycle ≠ 4 → s.recordForm b = true → s.recordSecret b = some x →
          (status s ≠ 0 → answer (status s)) ∧
          (status s = 0 → ∃ t w, exec i s = .next t ∧ t.wire = .recordStatus 0 :: w ∧
            Table.find t.store.counters (recSigner b) = some (recCounter b) ∧
            (action = 1 → Table.find t.store.principals p = some
              { kind := recKind b, access := slice x 0 32, vx := fieldAt b 0x40 48, vy := fieldAt b 0x70 48
                wrap := if recKind b = 4 then slice x 32 32 else [] } ∧
              (∀ q, q ≠ p → Table.find t.store.principals q = Table.find s.store.principals q) ∧ w = s.wire) ∧
            (∀ y, action = 2 → Table.find s.store.principals p = some y → (∀ n, (s.qp n).principal ≠ p) →
              Table.find t.store.principals p = some { y with access := slice x 0 32, vx := fieldAt b 0x40 48, vy := fieldAt b 0x70 48 } ∧
              (∀ q, q ≠ p → Table.find t.store.principals q = Table.find s.store.principals q)) ∧
            (∀ y, action = 2 → Table.find s.store.principals p = some y → s.requests = [] → s.jobs = [] → s.host.held = [] →
              Table.find t.store.principals p = some { y with access := slice x 0 32, vx := fieldAt b 0x40 48, vy := fieldAt b 0x70 48 } ∧
              (∀ n, (s.qp n).principal = p → p ≠ 0 → ((s.qp n).st = .active ∨ (s.qp n).st = .expired) → (s.qp n).cmds = [] →
                (t.qp n).st = .unbound ∧ (t.qp n).keys = none ∧ (t.qp n).principal = 0) ∧
              (∀ n, (s.qp n).principal ≠ p → t.qp n = s.qp n)) ∧
            (action = 3 → Table.find t.store.principals p = none ∧ p ∈ t.store.removed ∧ ∀ m ∈ t.store.modelKeys, m.2.1 ≠ p) ∧
            (action = 4 → Table.find t.store.modelKeys (recModel b) = some (p, slice x 0 32) ∧
              (∀ m, m ≠ recModel b → Table.find t.store.modelKeys m = Table.find s.store.modelKeys m) ∧ w = s.wire)))))

/-! ### Stages, models, steps and serving -/

/-- Tier 2. STAGE_RELEASE returns a QUIESCED stage to READY without changing epoch, measurement or model, and
completes with OK, as it does at once on a READY stage; on the other states, and where a rig or a fence is about to
take the stage, it and STAGE_QUIESCE complete as R386 lists, changing nothing but the module epoch, in which every
STAGE_QUIESCE counts (R458); in a session bound to another epoch of the stage they end with STAGE_RERIGGING (R460). A
quiesce of a READY stage with no step
and no work makes it QUIESCED with its epoch increased and zeros over its KV granules (R384, R386, R392). That the
counts of epochs are as here where the rules can be read two ways is the model's reading (log 50). -/
def Obligations.StageCommands : Prop :=
  ∀ (c : HostCmd) (s : State),
    s.answers (.stageRelease c) c 0x1A (fun k t u =>
      let g := k.arg 0 1
      let x := t.stage g
      (x.st = 0 → u = t.finish k.ref 0x0501) ∧ (x.st ≠ 0 → t.rerigged k g = true → u = t.finish k.ref 0x0502) ∧ (t.rerigged k g = false →
      (x.st = 1 → u = t.finish k.ref 0x0502) ∧ (x.st = 2 → u = t.finish k.ref 0) ∧
      (x.st = 3 → u = t.finish k.ref 0x0502) ∧
      (x.st = 4 → t.rigNames g = true ∨ x.why = .fence → u = t.finish k.ref 0x0502) ∧
      (x.st = 4 → t.rigNames g = false → x.why ≠ .fence → x.scrub = none → ∃ y : State, u = y.finish k.ref 0 ∧
        y.stage g = { x with st := 2 } ∧ (∀ h, h ≠ g → y.stage h = t.stage h) ∧ t.sameBytes y ∧
        y.power.epochEvents = (t.power.epochEvents + 1) % 2 ^ 32))) ∧
    s.answers (.stageQuiesce c) c 0x19 (fun k t u =>
      let g := k.arg 0 1
      let x := t.stage g
      let n : State := { t with power := { t.power with epochEvents := (t.power.epochEvents + 1) % 2 ^ 32 } }
      (x.st = 0 → u = n.finish k.ref 0x0501) ∧ (x.st ≠ 0 → t.rerigged k g = true → u = n.finish k.ref 0x0502) ∧ (t.rerigged k g = false →
      (x.st = 1 → u = n.finish k.ref 0x0502) ∧
      (x.st = 3 → u = n.setStage g { x with waiters := x.waiters ++ [k.ref] }) ∧ (x.st = 4 → u = n.finish k.ref 0) ∧
      (x.st = 2 → x.step = none → x.scrub = none → x.posts = [] → x.epoch < 0xFFFFFFFF → t.requests = [] → t.jobs = [] →
        t.costumes.res = [] → t.storage.ops = [] → t.rig = none → (t.cmdOf k.ref).map (·.opcode) = some 0x19 →
        ∃ y : State, u = y.finish k.ref 0 ∧ (y.stage g).st = 4 ∧ (y.stage g).epoch = x.epoch + 1 ∧ (y.stage g).cfg = x.cfg ∧ (y.stage g).model = x.model ∧
          (∀ h, h ≠ g → y.stage h = t.stage h) ∧
          (∀ i a, i ∈ t.granules g 0 3 → i * 0x400_0000 ≤ a → a < (i + 1) * 0x400_0000 → a < stagingBase → y.readByte a = 0))))

/-- Tier 2. MODEL_LOAD of a package at hand: a stage that is not READY, an owner or model that does not fit and a key
condition refuse it, leaving the stage; checks that fail afterwards leave the stage without a model; otherwise the
tensors are placed and the stage has the model. MODEL_UNLOAD removes the model of a QUIESCED stage, whose WEIGHTS then
read as zeros, and that of a READY stage by way of a quiesce, which leaves it READY with its epoch increased; it
refuses the other states, and a session bound to another epoch (R381, R435, R447, R449, R460). RESULT0 of MODEL_UNLOAD
and the statuses of malformed packages are the model's readings (log 43). -/
def Obligations.ModelCommands : Prop :=
  ∀ (c : HostCmd) (s : State),
    s.answers (.modelLoad c) c 0x10 (fun k t u =>
      let g := k.arg 0 1
      let st := t.stageFor k g
      (st ≠ 0 → u = t.finish k.ref st) ∧
      (∀ cfg, st = 0 → (t.stage g).cfg = some cfg →
        let kind := t.kindOf k.principal
        let key := ((Table.find t.store.modelKeys cfg.model).map (·.2)).getD []
        let ours : Prop := if kind = 2 then cfg.owner = k.principal else cfg.owner = 0
        let put := t.placeModel g cfg key k.data
        (kind = 2 → cfg.owner ≠ k.principal → u = t.finish k.ref 0x0605) ∧
        (kind ≠ 2 → cfg.owner ≠ 0 → u = t.finish k.ref 0x0505) ∧
        (ours → k.arg 0x18 4 ≠ cfg.model → u = t.finish k.ref 0x0104) ∧
        (ours → k.arg 0x18 4 = cfg.model → bit (k.arg 1 1) 0 = false →
          (t.modelRefused cfg k.data = true → u = t.finish k.ref 0x0505) ∧
          (t.modelRefused cfg k.data = false → put.1 ≠ 0 → ∃ y : State, u = y.finish k.ref put.1 ∧ (y.stage g).model = none ∧
            (y.stage g).st = (t.stage g).st ∧ ∀ h, h ≠ g → y.stage h = t.stage h) ∧
          (t.modelRefused cfg k.data = false → put.1 = 0 → ∃ y : State, ∃ m : Model, u = y.finish k.ref 0 put.2.1 ∧
            (y.stage g).model = some m ∧ m.weightBytes = put.2.1 ∧ m.package = k.data ∧ (∀ h, h ≠ g → y.stage h = t.stage h))))) ∧
    s.answers (.modelUnload c) c 0x11 (fun k t u =>
      let g := k.arg 0 1
      let x := t.stage g
      (x.st = 0 → u = t.finish k.ref 0x0501) ∧ (x.st = 1 ∨ x.st = 3 → u = t.finish k.ref 0x0502) ∧
      (x.st = 2 ∨ x.st = 4 → t.rerigged k g = true → u = t.finish k.ref 0x0502) ∧ (t.rerigged k g = false →
      (x.st = 2 ∨ x.st = 4 → t.kindOf k.principal = 2 → (x.cfg.map (·.owner)).getD 0 ≠ k.principal → u = t.finish k.ref 0x0605) ∧
      (x.st = 2 ∨ x.st = 4 → t.kindOf k.principal ≠ 2 → x.model = none → u = t.finish k.ref 0) ∧
      (∀ m, x.st = 2 → t.kindOf k.principal ≠ 2 → x.model = some m → x.step = none → x.scrub = none → x.posts = [] → x.epoch < 0xFFFFFFFF →
        t.requests = [] → t.jobs = [] → t.costumes.res = [] → t.storage.ops = [] → t.rig = none →
        (t.cmdOf k.ref).map (·.opcode) = some 0x11 →
        ∃ y : State, u = y.finish k.ref 0 m.weightBytes ∧ (y.stage g).st = 2 ∧ (y.stage g).model = none ∧ (y.stage g).epoch = x.epoch + 1 ∧
          ∀ h, h ≠ g → y.stage h = t.stage h) ∧
      (∀ m, x.st = 4 → t.kindOf k.principal ≠ 2 → x.model = some m → t.storage.ops = [] →
        ∃ y : State, u = y.finish k.ref 0 m.weightBytes ∧ (y.stage g).model = none ∧ (y.stage g).epoch = x.epoch ∧
          (∀ i a, i ∈ t.granules g 0 1 → i * 0x400_0000 ≤ a → a < (i + 1) * 0x400_0000 → a < stagingBase → y.readByte a = 0))))

/-- Tier 2. RIG_STAGE: an image that does not parse or fails phase A changes nothing; a partial image for an UNRIGGED
stage makes it RIGGING with its epoch increased, and so does a full one the first of its stages, the others waiting
for their turn, with the module's own plan that of the image (R370). It waits while another rig is in progress or due.
RIG_COMPLETE makes the stage READY, or UNRIGGED where phase B fails, and ends the rig. The default image is rigged
once after a reset: DEFAULT_IMAGE_RIG takes up those of its stages that no check of phase A stops, and without any of
them leaves every stage UNRIGGED (R382, R383, R387, R391, R397, R494). RIG_COMPLETE
and DEFAULT_IMAGE_RIG answer a next state in each of these cases. -/
def Obligations.Rigging : Prop :=
  ∀ (c : HostCmd) (s : State),
    s.answers (.rigStage c) c 0x18 (fun k t u =>
      (fieldAt k.data 8 4 ≠ k.data.length → u = t.finish k.ref 0x0104) ∧
      (fieldAt k.data 8 4 = k.data.length → t.rig ≠ none ∨ t.power.defaultRig = true → u = t.hold k false) ∧
      (fieldAt k.data 8 4 = k.data.length → t.rig = none → t.power.defaultRig = false → (∀ h ∈ t.host.held, h.opcode = 0x18 → k.id ≤ h.id) →
        (parseImage t.dev.part k.data = none → u = t.finish k.ref 0x0504) ∧
        (∀ m, parseImage t.dev.part k.data = some m → t.phaseA m ≠ 0 → u = t.finish k.ref (t.phaseA m)) ∧
        (∀ m g, parseImage t.dev.part k.data = some m → t.phaseA m = 0 → m.full = false → m.stages = [g] → (t.stage g).st = 0 →
          (t.stage g).scrub = none → (t.stage g).epoch < 0xFFFFFFFF → (m.cfg g).dies ≠ [] → t.fencedBy (m.cfg g) (m.routes g) = false →
          u.rig = some { cmd := some k.ref, image := k.data, current := some g, todo := [], status := 0 } ∧
          (u.stage g).st = 1 ∧ (u.stage g).epoch = (t.stage g).epoch + 1 ∧ (u.stage g).cfg = some (m.cfg g) ∧
          ∀ h, h ≠ g → u.stage h = t.stage h) ∧
        (∀ m g rest, parseImage t.dev.part k.data = some m → t.phaseA m = 0 → m.full = true → m.stages = g :: rest →
          (∀ h ∈ m.stages, (t.stage h).st = 0 ∧ (t.stage h).scrub = none) →
          (t.stage g).epoch < 0xFFFFFFFF → (m.cfg g).dies ≠ [] → t.fencedBy (m.cfg g) (m.routes g) = false →
          u.rig = some { cmd := some k.ref, image := k.data, current := some g, todo := rest, status := 0 } ∧ u.modRuns = m.module ∧
          (u.stage g).st = 1 ∧ (u.stage g).epoch = (t.stage g).epoch + 1 ∧ (u.stage g).cfg = some (m.cfg g) ∧
          ∀ h, h ≠ g → u.stage h = t.stage h))) ∧
    (s.rig = none → exec .rigComplete s = .next s) ∧
    (∀ r m g, s.rig = some r → r.current = some g → r.todo = [] → parseImage s.dev.part r.image = some m →
      let x := s.finishStage m g
      (x.1 = 0 → ∃ t, exec .rigComplete s = .next t ∧ t.rig = none ∧ (t.stage g).st = 2 ∧ (t.stage g).epoch = (s.stage g).epoch ∧
        ∀ h, h ≠ g → t.stage h = s.stage h) ∧
      (x.1 ≠ 0 → ∃ t, exec .rigComplete s = .next t ∧ t.rig = none ∧ (t.stage g).st = 0 ∧ (t.stage g).cfg = none ∧
        (t.stage g).epoch = (s.stage g).epoch)) ∧
    (s.power.phase = .running → s.power.defaultRig = true → s.rig = none →
      (s.defaultStages = [] → ∃ t, exec .defaultImageRig s = .next t ∧ t.power = { s.power with defaultRig := false } ∧ t.rig = none ∧
        ∀ g, g < 16 → t.stage g = if (s.stage g).st = 1 then { s.stage g with st := 0 } else s.stage g) ∧
      (∀ m g rest, parseImage s.dev.part s.dev.flashImage = some m → s.defaultStages = g :: rest →
        (∀ h ∈ s.defaultStages, (s.stage h).st < 2 ∧ (s.stage h).scrub = none) → (∀ h, h ∉ s.defaultStages → (s.stage h).st ≠ 1) →
        (s.stage g).epoch < 0xFFFFFFFF → (m.cfg g).dies ≠ [] → s.fencedBy (m.cfg g) (m.routes g) = false →
        ∃ t, exec .defaultImageRig s = .next t ∧ t.power = { s.power with defaultRig := false } ∧
          t.rig = some { cmd := none, image := s.dev.flashImage, current := some g, todo := rest, status := 0 } ∧ t.modRuns = m.module ∧
          (t.stage g).st = 1 ∧ (t.stage g).epoch = (s.stage g).epoch + 1 ∧ (t.stage g).cfg = some (m.cfg g) ∧
          ∀ h, h ≠ g → t.stage h = s.stage h)) ∧
    (s.power.defaultRig = false → exec .defaultImageRig s = .next s)

/-- Tier 2. A step starts in a READY stage that can start one: it holds the groups that were filled, its sequencers
run from the serving or the tuning entry, and a fixed-cadence step is padded to CAD_ROWS; a fixed-cadence stage with
IN routes starts none without its arrival lines (R375). Where the stage cannot start one nothing happens (R223, R278,
R296, R399, R466). That a stage without a model starts no step is the model's choice (log 27). STEP_START,
TUNING_PASS_START and CADENCE_PERIOD_BOUNDARY answer a next state in each of these cases. -/
def Obligations.StepStarts : Prop :=
  ∀ (stage job : Nat) (s : State),
    let d := s.fill stage (s.capOf stage)
    let started : State → Machine.Step → (StageCfg → Nat) → Prop := fun t p entry =>
      (t.stage stage).step = some p ∧ p.attempt = 1 ∧ p.aborted = false ∧ p.cause = 0 ∧
      ∀ cfg, (s.stage stage).cfg = some cfg → ∀ cl, cl ∈ s.stageClusters stage →
        (t.cluster cl).st = .running ∧ (t.cluster cl).pc = nth 0 (s.cluster cl).entries (entry cfg)
    (s.canStart stage = false ∨ s.fixed stage = true ∨ d.tune.isSome = true ∨ d.groups = [] → exec (.stepStart stage) s = .next s) ∧
    (s.canStart stage = true → s.fixed stage = false → d.tune = none → d.groups ≠ [] →
      ∃ t p, exec (.stepStart stage) s = .next t ∧ started t p (·.entryServe) ∧ p.groups.length = d.groups.length ∧ p.pass = none) ∧
    (∀ j, s.job job = some j → j.stage = stage → s.canStart stage = true → s.fixed stage = false → d.tune.map (·.1) = some job →
      ∃ t p, exec (.tuningPassStart job) s = .next t ∧ started t p (·.entryTune) ∧ p.pass = some job ∧ p.tuneN = j.n ∧
        p.passIdx = j.passIdx ∧ p.seed = j.seed) ∧
    (s.job job = none → exec (.tuningPassStart job) s = .next s) ∧
    (s.fixed stage = true → (s.stage stage).step = none →
      let b := (s.stage stage).posts.foldl (fun s p => s.post p.1 p.2) (s.setStage stage { s.stage stage with posts := [] })
      let rows := (b.fill stage (b.capOf stage)).groups
      (b.canStart stage = false → exec (.cadencePeriodBoundary stage) s = .next b) ∧
      ((s.stage stage).ins ≠ [] → rows = [] → exec (.cadencePeriodBoundary stage) s = .next b) ∧
      (b.canStart stage = true → (s.stage stage).ins = [] ∨ rows ≠ [] → ∃ t p, exec (.cadencePeriodBoundary stage) s = .next t ∧
        (t.stage stage).step = some p ∧ p.groups.length = max rows.length (b.capOf stage))) ∧
    (s.fixed stage = false ∨ (s.stage stage).step ≠ none → exec (.cadencePeriodBoundary stage) s = .next s)

/-- Tier 2. A step is complete when every sequencer of its stage is HALTED, and only then: the stage is free for the
next one. A replay runs the same step again, and only up to the third attempt; one that waits for a costume image runs
once every costume of the step is resident again; a quiesce that runs out of time aborts the step (R223, R251, R384,
R475, R477). STEP_COMPLETE, STEP_REPLAY and QUIESCE_TIMEOUT answer a next state in each of these cases. -/
def Obligations.StepEnds : Prop :=
  ∀ (stage : Nat) (p : Machine.Step) (s : State), (s.stage stage).step = some p →
    let halted : Prop := ∀ cl, cl ∈ s.stageClusters stage → (s.cluster cl).st = .halted
    (p.aborted = true ∨ ¬ halted → exec (.stepComplete stage) s = .next s) ∧
    (p.aborted = false → halted → (s.stage stage).st = 2 → ∃ t, exec (.stepComplete stage) s = .next t ∧
      (t.stage stage).step = none ∧ (t.stage stage).st = 2 ∧ (t.stage stage).turn = (s.stage stage).turn + 1) ∧
    (∀ cfg, (s.stage stage).cfg = some cfg → p.aborted = true → p.cause ≠ 0 → p.parity = true → p.attempt < 3 → p.pass = none →
      ∃ t, exec (.stepReplay stage) s = .next t ∧ s.sameBytes t ∧
        (t.stage stage).step = some { p with attempt := p.attempt + 1, aborted := false, cause := 0, parity := false } ∧
        ∀ cl, cl ∈ s.stageClusters stage → (t.cluster cl).st = .running ∧ (t.cluster cl).pc = nth 0 (s.cluster cl).entries cfg.entryServe) ∧
    (∀ cfg, (s.stage stage).cfg = some cfg → p.aborted = true → p.cause = 0 →
      (s.leasable stage p = true → ∃ t q, exec (.stepReplay stage) s = .next t ∧ (t.stage stage).step = some q ∧ q.aborted = false ∧
        q.attempt = p.attempt ∧ q.groups.map (·.rows) = p.groups.map (·.rows)) ∧
      (s.leasable stage p = false → exec (.stepReplay stage) s = .next s)) ∧
    (p.aborted = true → p.cause ≠ 0 → (p.parity = false ∨ 3 ≤ p.attempt) → exec (.stepReplay stage) s = .next s) ∧
    (p.aborted = false → exec (.stepReplay stage) s = .next s) ∧
    ((s.stage stage).st = 3 → exec (.quiesceTimeout stage) s =
      .next (((s.abortStep stage).settleErrors stage p false).closeStep stage p)) ∧
    ((s.stage stage).st ≠ 3 → exec (.quiesceTimeout stage) s = .next s)

/-- Tier 2. SERVE_SUBMIT queues a request behind the others; a check that fails ends it with its status. A step that
emits a token for a request appends it, and ends the request at END or after MAX_NEW tokens. SERVE_CANCEL ends a
request of its session at once, with CANCELLED in its completion, or after the step that holds its rows (R426, R429,
R430). Placement of KV pages is the model's choice (log 21). -/
def Obligations.Serving : Prop :=
  ∀ (c : HostCmd) (s : State),
    s.answers (.serveSubmit c) c 0x30 (fun k t u =>
      let st := t.submitStatus k
      (st ≠ 0 → u = t.finish k.ref st) ∧
      (st = 0 → ∃ r, u = { t.noteIdle (k.arg 4 1) with requests := t.requests ++ [r], nextReq := t.nextReq + 1 } ∧ r.id = t.nextReq ∧
        r.cmd = k.ref ∧ r.handle = k.arg 0 4 ∧ r.stage = k.arg 4 1 ∧ r.prompt.length = k.arg 8 4 ∧ r.maxNew = k.arg 0xC 4 ∧
        r.kvPages = k.arg 0x10 2 ∧ r.stepTag = k.arg 0x18 8 ∧ r.kvFirst = none ∧ r.placed = 0 ∧ r.emitted = [] ∧ r.cancel = false ∧
        ∀ j, j < k.arg 8 4 → nth 0 r.prompt j = fieldAt k.data (4 * j) 4)) ∧
    s.answers (.serveCancel c) c 0x31 (fun k t u =>
      let mine := t.requests.find? fun r => r.cmd.1 = k.qp && ((t.cmdOf r.cmd).map (·.seq)) = some (k.arg 0 4)
      (mine = none → u = t.finish k.ref 0 0) ∧
      (∀ r, mine = some r → r.cancel = true → u = t.finish k.ref 0 0) ∧
      (∀ r, mine = some r → r.cancel = false → r.canceller = none →
        (t.inStep r = true → u = t.setRequest { r with cancel := true, canceller := some k.ref }) ∧
        (t.inStep r = false → (t.qp k.qp).closeTaken = false →
          u = (({ t.scrubKv r with requests := t.requests.filter fun x => x.id ≠ r.id } : State).finish k.ref 0 1).post r.cmd
            ⟨0, r.emitted.length, 0, false, false, true⟩))) ∧
    (∀ g p r n row, p.rowsOf r.id = (n, some row) → s.request r.id = some r →
      let o := s.readLE (granuleAddr 0 ((s.granules g 0 6).headD 0) + 8 * row) 8
      let r' := { r with placed := r.placed + n, emitted := r.emitted ++ [o % 2 ^ 32] }
      let t := s.finishRequest g p r
      (bit o 32 = true ∨ r.maxNew ≤ r'.emitted.length → t.request r.id = none) ∧
      (bit o 32 = false → r'.emitted.length < r.maxNew → r.cancel = true → t.request r.id = none) ∧
      (bit o 32 = false → r'.emitted.length < r.maxNew → r.cancel = false → r.handle = noHandle →
        t.request r.id = some r' ∧ s.sameBytes t))

/-! ### Costumes -/

/-- Tier 2. COSTUME_REGISTER takes the entry that was freed longest ago, or a fresh one, makes it REGISTERING for its
customer and reads its package, or frees it again where the range is not one of a usable namespace; without an entry
it ends with QUEUE_FULL. COSTUME_PREFETCH starts a speculative load in each stage it names where the costume is ABSENT
and room is free, or once its pages have been scrubbed, and places or removes nothing in another stage; COSTUME_PIN
pins a resident costume at once, and otherwise completes with its load; COSTUME_AUDIT gives the costume's records,
newest first; COSTUME_RETIRE makes the entry RETIRING, with no load and no pin of it left and no request but those in
a running step. Each of the four ends with the first status that its handle or a stage gives. A directory entry has
the 64 bytes of its table (R267, R268, R269, R281, R282, R284, R285, R289). That a prefetch without room starts
nothing, and that a retiring costume has no audit, are the model's readings (log 51). -/
def Obligations.CostumeCommands : Prop :=
  ∀ (c : HostCmd) (s : State),
    s.answers (.costumeRegister c) c 0x20 (fun k t u =>
      let o := t.costumes
      let ok := t.nvmeOk (k.arg 0 1) (k.arg 4 4) (k.arg 8 8) (k.arg 0x10 4)
      (16777216 ≤ o.fresh → o.freed = [] → u = t.finish k.ref 0x0802) ∧
      (∀ i, (o.fresh < 16777216 ∧ i = o.fresh) ∨ (16777216 ≤ o.fresh ∧ o.freed.head? = some i) →
        (ok = true → (u.entry i).st = 1 ∧ (u.entry i).isolate = bit (k.arg 1 1) 0 ∧ (u.entry i).customer = k.principal ∧
          (u.entry i).auditHead = 0xFFFFFFFF ∧ (∀ n, n ≠ i → u.entry n = t.entry n) ∧
          ∃ x, u.storage.ops = t.storage.ops ++ [x] ∧ x.write = false ∧ x.controller = k.arg 0 1 ∧ x.nsid = k.arg 4 4 ∧
            x.slba = k.arg 8 8 ∧ x.len = k.arg 0x10 4 ∧ u.wire = .nvme x :: t.wire) ∧
        (ok = false → ∃ y : State, u = y.finish k.ref 0x0104 ∧ (y.entry i).st = 0 ∧ ∀ n, n ≠ i → y.entry n = t.entry n))) ∧
    s.answers (.costumePrefetch c) c 0x22 (fun k t u =>
      let h := k.arg 0 4
      let i := handleIdx h
      let stages := (List.range 16).filter fun g => bit (k.arg 4 2) g
      let good : Prop := t.resolve k.principal h none = 0 ∧
        ∀ g, g ∈ stages → t.stageFor k g = 0 ∧ t.resolve k.principal h (some (t.stageModel g)) = 0
      let new := stages.filter fun g => match t.resident g i with
        | some r => r.st = .scrubbing && r.again.isNone
        | none => true
      let out := t.costumes.res.countP fun r => r.st = .loadingSpec || r.again.isSome
      (¬ good → ∃ st, st ≠ 0 ∧ u = t.finish k.ref st) ∧
      (good → 64 < out + new.length → u = t.finish k.ref 0x0802) ∧
      (good → out + new.length ≤ 64 → ∃ y : State, u = y.finish k.ref 0 ∧ ∀ g,
        (t.resident g i = none → g ∉ new → y.resident g i = none) ∧
        (t.resident g i = none → g ∈ new → (∀ x, x ∈ t.costumes.res → x.unplaced = false) →
          (∀ a, t.reservedFor g i = false → t.findRun g (t.entry i).pages = some a → ∃ r, y.resident g i = some r ∧ r.st = .loadingSpec ∧
            r.addr = a ∧ r.pages = (t.entry i).pages ∧ r.gen = (t.entry i).gen ∧ r.pins = [] ∧ r.pinned = false) ∧
          (t.reservedFor g i = true ∨ t.findRun g (t.entry i).pages = none → y.resident g i = none)) ∧
        (∀ r, t.resident g i = some r → g ∉ new → ∃ r', y.resident g i = some r' ∧ r'.st = r.st ∧ r'.pages = r.pages ∧ r'.pins = r.pins ∧
          r'.pinned = r.pinned ∧ (r.unplaced = false → r'.addr = r.addr ∧ r'.alt = r.alt)) ∧
        (∀ r, t.resident g i = some r → g ∈ new → y.resident g i = some { r with again := some k.who }))) ∧
    s.answers (.costumePin c) c 0x23 (fun k t u =>
      let h := k.arg 0 4
      let i := handleIdx h
      let g := k.arg 4 1
      let n := (t.entry i).pages
      let st := t.stageFor k g
      let rs := t.resolve k.principal h (some (t.stageModel g))
      let fits : Resident → Bool := fun r => t.shareOk g (if r.pinned || r.tuneHeld || t.tuneOpen g i || !r.pins.isEmpty then 0 else r.pages)
      let fresh := t.shareOk g (if t.tuneOpen g i || t.host.held.any (fun h => h.pinOf g = some i) then 0 else n)
      (st ≠ 0 → u = t.finish k.ref st) ∧
      (st = 0 → rs ≠ 0 → u = t.finish k.ref rs) ∧
      (st = 0 → rs = 0 → bit (k.arg 5 1) 0 = true → ∃ y : State, u = y.finish k.ref 0 ∧
        ∀ r, y.resident g i = some r → r.pinned = false) ∧
      (st = 0 → rs = 0 → bit (k.arg 5 1) 0 = false →
        (∀ r, t.resident g i = some r → fits r = false → u = t.finish k.ref 0x0303) ∧
        (∀ r, t.resident g i = some r → fits r = true →
          (r.st = .resident → ∃ y : State, u = y.finish k.ref 0 ∧ y.resident g i = some { r with pinned := true }) ∧
          (r.st = .scrubbing → u = t.hold k false) ∧
          (r.st = .loadingSpec ∨ r.st = .loadingDemand → ∃ r', u.resident g i = some r' ∧ r'.st = .loadingDemand ∧ r'.pins = r.pins ++ [k.ref])) ∧
        (t.resident g i = none → fresh = false → u = t.finish k.ref 0x0303) ∧
        (∀ a, t.resident g i = none → fresh = true → t.reservedFor g i = false → t.findRun g n = some a →
          ∃ r', u.resident g i = some r' ∧ r'.st = .loadingDemand ∧ r'.addr = a ∧ r'.pins = [k.ref]) ∧
        (t.resident g i = none → fresh = true → t.reservedFor g i = true ∨ t.findRun g n = none → u = (t.makeSpace g n).hold k false))) ∧
    s.answers (.costumeAudit c) c 0x24 (fun k t u =>
      let h := k.arg 0 4
      let e := t.entry (handleIdx h)
      let r := t.auditWalk h (min (k.arg 4 4) 8388608) e.auditHead (2 ^ 64)
      let known : Prop := t.resolve k.principal h none = 0 ∨
        (e.st = 0 ∧ e.hgen = (if h / 2 ^ 24 = 0xFE then 0 else h / 2 ^ 24 + 1) ∧ e.customer = k.principal)
      (e.poisoned = true → u = t.finish k.ref 0x0702) ∧
      (e.poisoned = false → known → u = (t.result k true (r.1.flatMap Audit.bytes)).post k.ref ⟨0, r.1.length, 0, false, r.2, false⟩) ∧
      (e.poisoned = false → ¬ known → u = t.finish k.ref 0x0302) ∧
      r.1.length ≤ k.arg 4 4 ∧ r.1.Pairwise (fun a b => b.time ≤ a.time) ∧ (∀ a, a ∈ r.1 → a.handle = h ∧ a.bytes.length = 32)) ∧
    s.answers (.costumeRetire c) c 0x21 (fun k t u =>
      let h := k.arg 0 4
      let i := handleIdx h
      let st := t.resolve k.principal h none
      (st ≠ 0 → (t.entry i).poisoned = false → u = t.finish k.ref st) ∧
      (st = 0 → (u.entry i).st = 3 ∧ (u.entry i).retire = some k.ref ∧
        (∀ r, r ∈ u.requests → r.handle ≠ noHandle → handleIdx r.handle = i → t.inStep r = true) ∧
        (∀ r, r ∈ u.costumes.res → r.index = i → r.st ≠ .loadingSpec ∧ r.st ≠ .loadingDemand ∧ r.pinned = false ∧ r.pins = []))) ∧
    ∀ i,
      let e := s.entry i
      let b := s.entryBytes i
      b.length = 64 ∧ fieldAt b 0 4 = e.customer % 2 ^ 32 ∧ fieldAt b 4 4 = e.model % 2 ^ 32 ∧ fieldAt b 8 8 = e.costumeId % 2 ^ 64 ∧
        fieldAt b 0x14 4 = e.imageLen % 2 ^ 32 ∧ fieldAt b 0x18 4 = e.gen % 2 ^ 32 ∧ fieldAt b 0x30 8 = e.cacheAddr % 2 ^ 64 ∧
        fieldAt b 0x38 4 = e.auditHead % 2 ^ 32 ∧
        ∀ g, g < 16 → (bit (fieldAt b 0x3C 4) g = true ↔ ∃ r, r ∈ s.costumes.res ∧ r.stage = g ∧ r.index = i ∧ r.st = .resident)

/-- Tier 2. A load that demand starts reserves the lowest run of free pages and runs once a link die is free; a
speculative one is adopted; a costume that the stage can never hold ends the requests for it, and one without room
makes room. A load whose package passes every check leaves the costume RESIDENT under the package's generation, and
one from storage that fails leaves it SCRUBBING. A scrub's end leaves zeros in every buffer and the costume ABSENT,
and waits for the leases. An unleased image whose bricks carry their tags moves to other pages and leaves zeros. The
staging cache lets the least recently loaded package go that no load reads. A retirement ends with the entry FREE, its
handle not valid again, and the costume in no stage (R270, R271, R273, R279, R283, R285). The choice of the lowest run
is the model's (log 20). COSTUME_LOAD, COSTUME_LOAD_COMPLETE, COSTUME_RELOCATION, PAGE_SCRUB_COMPLETE, CACHE_EVICTION
and RETIRE_COMPLETE answer a next state in each of these cases. -/
def Obligations.CostumeLoads : Prop :=
  ∀ (g h page : Nat) (s : State),
    let i := handleIdx h
    let e := s.entry i
    let old := s.costumes.scrubs.find? fun x => x.stage = g && x.index = i
    (g < 16 → (s.stage g).st = 2 → e.st = 2 → s.handleOf i = h → e.model = s.stageModel g → s.demanded g i = true →
      (∀ a, s.resident g i = none → s.reservedFor g i = false → s.findRun g e.pages = some a →
        ∃ t r, exec (.costumeLoad g h) s = .next t ∧ t.resident g i = some r ∧ r.st = .loadingDemand ∧ r.addr = a ∧ r.pages = e.pages ∧
          r.gen = e.gen ∧ ((∀ x, x ∈ s.costumes.res → x.unplaced = false) →
            (s.dev.part.lds ≤ s.loads → r.running = false ∧ t.storage.ops = s.storage.ops) ∧
            (s.loads < s.dev.part.lds → s.nextLoad = none → r.running = true ∧ r.fetching = (s.cached i).isNone ∧
              (s.cached i ≠ none → t.storage.ops = s.storage.ops)))) ∧
      (s.resident g i = none → s.reservedFor g i = true ∨ s.findRun g e.pages = none →
        exec (.costumeLoad g h) s = .next (if s.tooLarge g i then s.endTooLarge g i else s.makeSpace g e.pages)) ∧
      (∀ r, s.resident g i = some r →
        (r.st = .loadingSpec → exec (.costumeLoad g h) s = .next (s.setResident { r with st := .loadingDemand, adopted := true })) ∧
        (r.st = .scrubbing ∨ (r.st = .loadingDemand ∧ r.unplaced = false) → exec (.costumeLoad g h) s = .next s) ∧
        (r.st = .loadingDemand → r.unplaced = true → exec (.costumeLoad g h) s = .next (s.makeSpace g 0)) ∧
        (r.st = .resident → exec (.costumeLoad g h) s = .next (if s.tuneHolds g i && r.alt = 0 then s.tuneBuffers g r else s)))) ∧
    (s.demanded g i = false → exec (.costumeLoad g h) s = .next s) ∧
    (∀ r, s.resident g i = some r →
      (∀ b img, r.st = .loadingSpec ∨ r.st = .loadingDemand → r.running = true → r.fetching = false → (s.cached i).map (·.bytes) = some b →
        s.checkPackage b = (0, img) → headStatus img = 0 → ∃ t r', exec (.costumeLoadComplete g h) s = .next t ∧ t.resident g i = some r' ∧
          r'.st = .resident ∧ r'.gen = pkgGen b ∧ r'.addr = r.addr ∧ r'.pins = [] ∧ r'.pinned = (r.pinned || !r.pins.isEmpty)) ∧
      (∀ b, r.st = .loadingSpec ∨ r.st = .loadingDemand → r.running = true → r.fetching = false → (s.cached i).map (·.bytes) = some b →
        (s.checkPackage b).1 ≠ 0 → r.stored = true → (s.stage g).step = none →
        ∃ t r', exec (.costumeLoadComplete g h) s = .next t ∧ t.resident g i = some r' ∧ r'.st = .scrubbing ∧ r'.pins = []) ∧
      (r.st = .resident ∨ r.st = .scrubbing ∨ r.running = false ∨ r.fetching = true → exec (.costumeLoadComplete g h) s = .next s) ∧
      (old = none → r.st = .scrubbing → (∀ a, a ∈ r.bufs → s.leasedAt g a = false) → r.again = none →
        ∃ t, exec (.pageScrubComplete g h) s = .next t ∧ t.resident g i = none ∧
          ∀ a b, b ∈ r.bufs → b ≤ a → a < b + r.pages * 0x10_0000 → a < stagingBase → t.readByte a = 0) ∧
      (old = none → r.st = .scrubbing → (∀ a, a ∈ r.bufs → s.leasedAt g a = false) →
        exec (.pageScrubComplete g h) s = .next (s.scrubbed r)) ∧
      (old = none → r.st ≠ .scrubbing ∨ (∃ a, a ∈ r.bufs ∧ s.leasedAt g a = true) → exec (.pageScrubComplete g h) s = .next s) ∧
      (∀ a, (s.wardrobe g)[page]? = some a → r.st = .resident → s.leases g i = 0 → s.runFree g a r.pages = true → s.headsGood r = true →
        ∃ t, exec (.costumeRelocation g h page) s = .next t ∧ t.resident g i = some { r with addr := a } ∧
          ∀ b, r.addr ≤ b → b < r.addr + r.pages * 0x10_0000 → b < stagingBase → t.readByte b = 0) ∧
      (s.leases g i ≠ 0 ∨ s.headsGood r = false → exec (.costumeRelocation g h page) s = .next s)) ∧
    (∀ x, old = some x → s.leasedAt g x.addr = false → ∃ t, exec (.pageScrubComplete g h) s = .next t ∧
      t.costumes.scrubs = s.costumes.scrubs.filter (· ≠ x) ∧ (∀ n m, (t.resident n m).isSome = (s.resident n m).isSome) ∧
      ∀ a, x.addr ≤ a → a < x.addr + x.pages * 0x10_0000 → a < stagingBase → t.readByte a = 0) ∧
    (∀ x, s.cacheVictim = some x → s.cacheRead x.index = false ∧ ∃ t, exec .cacheEviction s = .next t ∧ t.cached x.index = none ∧
      (t.entry x.index).cached = false ∧ ∀ n, n ≠ x.index → t.cached n = s.cached n ∧ t.entry n = s.entry n) ∧
    (s.cacheVictim = none → exec .cacheEviction s = .next s) ∧
    (e.st = 3 → s.handleOf i = h → (∀ n, n < 16 → s.leases n i = 0) → s.job i = none →
      ∃ t, exec (.retireComplete h) s = .next t ∧ (t.entry i).st = 0 ∧ (t.entry i).hgen = (if e.hgen = 0xFE then 0 else e.hgen + 1) ∧
        t.costumes.freed = s.costumes.freed ++ [i] ∧ (∀ n, t.resident n i = none) ∧
        ∀ r, e.retire = some r → ∃ y : State, t = y.finish r 0) ∧
    (e.st ≠ 3 ∨ s.job i ≠ none → exec (.retireComplete h) s = .next s)

/-! ### Tuning and the Carousel -/

/-- Tier 2. TUNE_OPEN on a costume whose image is at hand opens a job that starts at step 0 with the command's seed,
waits for a load otherwise, and restores a job from the checkpoint that it names, but for the seed, where that is
authentic, the customer's, and of this costume; TUNE_FEED queues its sequences behind those of earlier feeds, unless
the job is PAUSED; TUNE_CHECKPOINT takes the checkpoint at a boundary and otherwise waits for one, or for the
costume's image, one at a time; TUNE_CLOSE closes a job at rest, ends a window in progress early, and otherwise waits
until its step has completed; CAROUSEL_JOIN makes the job a joiner that has sent its FORM; CAROUSEL_LEAVE leaves at a
boundary, and until then the member is absent. Each ends with the first status that its handle, its stage or its
operands give (R268, R292, R315, R317, R320, R332, R336, R356, R431). The statuses of a job that is in a ring already,
or in none, are the model's choices (log 29). -/
def Obligations.TuningCommands : Prop :=
  ∀ (c : HostCmd) (s : State),
    s.answers (.tuneOpen c) c 0x38 (fun k t u =>
      let i := handleIdx (k.arg 0 4)
      let g := k.arg 4 1
      let st := t.openStatus k
      let staged := bit (k.arg 7 1) 0 = true ∧ bit (k.arg 0x18 1) 4 = false
      let place := t.nvmeOk (k.arg 0x18 1 % 16) (k.arg 0x1C 4) (k.arg 0x20 8) (k.arg 0x28 4)
      (st ≠ 0 → u = t.finish k.ref st) ∧
      (∀ img, st = 0 → bit (k.arg 7 1) 0 = false → t.currentImage i g = some img → ∃ j, u.job i = some j ∧ j.stage = g ∧
        j.handle = k.arg 0 4 ∧ j.customer = k.principal ∧ j.seed = k.arg 0x10 8 ∧ j.n = 0 ∧ j.exchanges = 0 ∧ j.thin = max 1 (k.arg 5 1) ∧
        j.grow = (if k.arg 8 2 = 0 then 2000 else k.arg 8 2) ∧ j.opt = slice k.data 0 64 ∧ j.feeds = [] ∧ j.passes = [] ∧ j.ring = none ∧
        j.sigma = (if k.arg 6 1 = 0xFF then 16 else k.arg 6 1) ∧
        j.paused = false ∧ j.shards.map (·.die) = t.stageDies g ∧ (u.entry i).tuning = true ∧
        ∀ d, d ∈ t.stageDies g → (u.die d).ueFlags = (t.die d).ueFlags ||| openFlags j.opt) ∧
      (st = 0 → bit (k.arg 7 1) 0 = false → t.currentImage i g = none →
        let n := (t.entry i).pages
        (∀ r, t.resident g i = some r → u = (t.adopt r).hold k false) ∧
        (∀ a, t.resident g i = none → t.reservedFor g i = false → t.findRun g n = some a →
          u.jobs = t.jobs ∧ u.host.held = t.host.held ++ [⟨k.qp, k.id, false, k.op, k.params, k.data, false⟩] ∧
          ∃ r, u.resident g i = some r ∧ r.st = .loadingDemand ∧ r.addr = a ∧ r.pages = n) ∧
        (t.resident g i = none → t.reservedFor g i = true ∨ t.findRun g n = none → u = (t.makeSpace g n).hold k false)) ∧
      (st = 0 → staged → t.stagedCk i = none → Table.find t.costumes.ckpts i = none → u = t.finish k.ref 0x0304) ∧
      (∀ p, st = 0 → staged → t.stagedCk i = none → Table.find t.costumes.ckpts i = some p → u = t.finish k.ref 0x0702) ∧
      (∀ p, st = 0 → staged → t.stagedCk i = some p → t.authentic p = none → u = t.finish k.ref 0x0304) ∧
      (∀ p b, st = 0 → staged → t.stagedCk i = some p → t.authentic p = some b →
        let e := t.entry i
        let img := ckImage b
        let ours : Prop := packageOk "LGKP" p = true ∧ (slice b 0 4 == ascii "LGCK") = true ∧ fieldAt b 4 2 = 1 ∧ fieldAt p 8 8 = e.costumeId ∧
          pkgModel p = e.model ∧ fieldAt b 0x34 4 = imgP e.tables ∧ imageOk img img.length = true ∧ sameLayout img e.tables = true ∧
          fieldAt b 6 2 = 0 ∧ fieldAt b 0x25 1 = 0 ∧ bits (fieldAt b 0x28 4) 23 9 = 0 ∧ optOk (slice b 0x40 64) = true ∧
          1 ≤ fieldAt b 0x2C 2 ∧ fieldAt b 0x2E 2 < fieldAt b 0x2C 2
        (pkgCustomer p ≠ k.principal → u = t.finish k.ref 0x0605) ∧
        (pkgCustomer p = k.principal → ¬ ours → u = t.finish k.ref 0x0104) ∧
        (pkgCustomer p = k.principal → ours → headStatus img ≠ 0 → u = t.finish k.ref (headStatus img)) ∧
        (pkgCustomer p = k.principal → ours → headStatus img = 0 → t.canSeal e.customer e.wrapped = false → u = t.finish k.ref 0x0304) ∧
        (pkgCustomer p = k.principal → ours → headStatus img = 0 → t.canSeal e.customer e.wrapped = true → ∃ j, u.job i = some j ∧
          j.stage = g ∧ j.seed = k.arg 0x10 8 ∧ j.n = fieldAt b 0x10 8 ∧ j.exchanges = fieldAt b 0x18 8 ∧ j.gen = fieldAt b 0x20 4 ∧
          j.sigma = fieldAt b 0x24 1 ∧ j.clean = fieldAt b 0x26 2 ∧ j.ring = none ∧ (u.entry i).tuning = true ∧
          (u.entry i).gen = fieldAt b 0x20 4)) ∧
      (st = 0 → bit (k.arg 7 1) 0 = true → bit (k.arg 0x18 1) 4 = true →
        (place = false → u = t.finish k.ref 0x0104) ∧
        (place = true → ∃ x, u.storage.ops = t.storage.ops ++ [x] ∧ x.write = false ∧ x.len = k.arg 0x28 4 ∧ u.jobs = t.jobs))) ∧
    s.answers (.tuneFeed c) c 0x39 (fun k t u =>
      let i := handleIdx (k.arg 0 4)
      let a := t.jobStatus k
      (a ≠ 0 → u = t.finish k.ref a) ∧
      (∀ j, a = 0 → t.job i = some j →
        let max := ((t.stage j.stage).cfg.map (·.maxTrows)).getD 0
        (t.stageFor k j.stage ≠ 0 → u = t.finish k.ref (t.stageFor k j.stage)) ∧
        (t.stageFor k j.stage = 0 →
          (parseFeed k.data (k.data.length / 4 + 1) 0 [] = none → u = t.finish k.ref 0x0104) ∧
          (∀ l, parseFeed k.data (k.data.length / 4 + 1) 0 [] = some l →
            let fits : Prop := (l.map List.length).foldl (· + ·) 0 = k.arg 4 4 ∧ ∀ q, q ∈ l → alignUp 16 q.length ≤ max
            (¬ fits → u = t.finish k.ref 0x0104) ∧
            (fits → j.paused = false → u = (t.noteIdle j.stage).setJob i { j with feeds := j.feeds ++ [⟨k.ref, k.arg 4 4, l⟩] }) ∧
            (fits → j.paused = true → u = t.finish k.ref (if j.verdict = 0x0104 then 0x0104 else 0x0404)))))) ∧
    s.answers (.tuneCheckpoint c) c 0x3A (fun k t u =>
      let i := handleIdx (k.arg 0 4)
      let a := t.jobStatus k
      let q : CkReq := ⟨k.ref, bit (k.arg 4 1) 0, k.arg 5 1, k.arg 8 4, k.arg 0x10 8⟩
      let fit : Prop := q.toStorage = false ∨ t.nvmeOk q.nvme q.nsid q.slba 1 = true
      (a ≠ 0 → u = t.finish k.ref a) ∧
      (∀ j, a = 0 → t.job i = some j →
        (¬ fit → u = t.finish k.ref 0x0104) ∧
        (fit → j.ckReq ≠ none → u = t.hold k false) ∧
        (fit → j.ckReq = none → j.atBoundary = false ∨ (j.member ≠ none ∧ j.paused = false) → u = t.setJob i { j with ckReq := some q }) ∧
        (fit → j.ckReq = none → j.atBoundary = true → j.ring = none → t.currentImage i j.stage = none →
          u = t.setJob i { j with ckReq := some q, ckDue := true }) ∧
        (∀ img p y, fit → j.ckReq = none → j.atBoundary = true → j.ring = none → q.toStorage = false → t.currentImage i j.stage = some img →
          let e := t.entry i
          let t' := t.setJob i { j with ckReq := none, ckDue := false }
          t'.sealPackage "LGKP" e.customer e.model e.gen e.costumeId e.wrapped (t'.checkpointImage i j img) = some (p, y) →
          let room := ((y.ckFree i).map (·.2)).foldl (· + ·) 0
          (p.length ≤ room → ∃ z : State, u = z.finish k.ref 0 p.length ∧ Table.find z.costumes.ckpts i = some p ∧
            z.job i = some { j with ckReq := none, ckDue := false, ckStaged := true }) ∧
          (room < p.length → u = t'.finish k.ref 0x0303)))) ∧
    s.answers (.tuneClose c) c 0x3B (fun k t u =>
      let i := handleIdx (k.arg 0 4)
      let a := t.jobStatus k
      (a ≠ 0 → u = t.finish k.ref a) ∧
      (∀ j, a = 0 → t.job i = some j →
        (j.closing ≠ none → u = t.finish k.ref 0x0302) ∧
        (j.closing = none → j.started = true → (∀ r, j.ring = some r → r.held = []) → ∃ j', u.job i = some j' ∧ j'.closing = some (0, some k.ref) ∧ j'.feeds = j.feeds.take 1 ∧
          j'.passes = j.passes) ∧
        (j.closing = none → j.started = false → j.window = .open → j.updating = false → j.wsteps = 0 →
          u.job i = none ∧ (u.entry i).tuning = false) ∧
        (j.closing = none → j.started = false → j.window = .open → j.updating = false → 0 < j.wsteps → j.ring = none → j.paused = false →
          ∃ j', u.job i = some j' ∧ j'.window = .closing ∧ j'.closing = some (0, some k.ref)))) ∧
    s.answers (.carouselJoin c) c 0x40 (fun k t u =>
      let i := handleIdx (k.arg 0 4)
      let a := t.jobStatus k
      (a ≠ 0 → u = t.finish k.ref a) ∧
      (∀ j, a = 0 → t.job i = some j →
        let fit : Prop := k.data.length = 40 ∧ j.atBoundary = true ∧ j.paused = false ∧ j.ring = none ∧ j.closing = none ∧
          ((j.ckSlot = none ∧ j.exchanges = 0) ∨ j.ckSlot = some (k.arg 0x10 2, k.arg 0x12 2))
        (¬ fit → u = t.finish k.ref 0x0104) ∧
        (fit → t.planes < k.arg 0x14 1 → u = t.finish k.ref 0x0801) ∧
        (fit → k.arg 0x14 1 ≤ t.planes → Crypto.keyUnwrap (t.wrapKey k.principal) k.data = none → u = t.finish k.ref 0x0304) ∧
        (∀ key, fit → k.arg 0x14 1 ≤ t.planes → Crypto.keyUnwrap (t.wrapKey k.principal) k.data = some key →
          ∃ j' r, u.job i = some j' ∧ j'.ring = some r ∧ r.joining = some k.ref ∧ r.id = k.arg 8 8 ∧ r.members = k.arg 0x10 2 ∧
            r.slot = k.arg 0x12 2 ∧ r.rings = k.arg 0x14 1 ∧ r.key = key ∧ r.salt.length = 32 ∧ r.formed = true))) ∧
    s.answers (.carouselLeave c) c 0x41 (fun k t u =>
      let i := handleIdx (k.arg 0 4)
      let a := t.jobStatus k
      (a ≠ 0 → u = t.finish k.ref a) ∧
      (∀ j, a = 0 → t.job i = some j →
        (j.member = none → u = t.finish k.ref 0x0104) ∧
        (∀ r, j.member = some r → r.leave = true ∨ j.paused = true → u = t.finish k.ref 0x0104) ∧
        (∀ r, j.member = some r → r.leave = false → j.paused = false →
          let r' := { r with leave := true, leaving := some k.ref, present := if r.opened then some false else r.present }
          (j.atBoundary = true → r.opened = false → ∃ j', u.job i = some j' ∧ j'.ring = none ∧ j'.n = j.n ∧ j'.shards = j.shards) ∧
          (j.atBoundary = false ∨ r.opened = true → u = (t.setJob i { j with ring := some r' }).settleRing i))))

/-- Tier 2. A completed pass moves its job to the next pass, and after the last one to the next step; a window whose
last step is complete ends in a decision: an update that applies makes every shard due, one that does not begins a new
window with the scale the decision gives; a window whose buffer has a poisoned line waits for its rollback. The feeds
of a PAUSED job end. A job rotates to the back of the order; a job whose pass met an unrecovered error is restored
from its checkpoint, or PAUSED without one. A die's update leaves in its shard what the update of each parameter gives,
or the shard as it was where no sample came or a new value is not finite, and writes the serving form of the new
master values into the other buffer; the switch makes the written buffers current under the next generation
(R175-R177, R181, R291, R296, R312, R313, R318). TUNING_PASS_COMPLETE, WINDOW_END,
JOB_ROTATION, TUNING_ROLLBACK, SHARD_UPDATE and PUBLICATION_SWITCH answer a next state in each of these cases. -/
def Obligations.TuningEvents : Prop :=
  ∀ (i die : Nat) (j : Job) (s : State), s.job i = some j →
    let on : Prop := ∃ p, (s.stage j.stage).step = some p ∧ p.pass = some i
    (j.running = true → ¬ on → j.broken = false → j.paused = false →
      (2 ≤ j.passes.length → ∃ t j', exec (.tuningPassComplete i) s = .next t ∧ t.job i = some j' ∧ j'.passes = j.passes.drop 1 ∧
        j'.passIdx = j.passIdx + 1 ∧ j'.n = j.n ∧ j'.wsteps = j.wsteps ∧ j'.running = false ∧ j'.feeds = j.feeds) ∧
      (j.passes.length ≤ 1 → j.closing = none → j.wsteps + 1 < j.thin → ∃ t j', exec (.tuningPassComplete i) s = .next t ∧
        t.job i = some j' ∧ j'.n = j.n + 1 ∧ j'.wsteps = j.wsteps + 1 ∧ j'.running = false ∧ j'.feeds = j.feeds.drop 1 ∧ j'.window = j.window) ∧
      (j.passes.length ≤ 1 → j.closing = none → j.thin ≤ j.wsteps + 1 → j.late = [] → ∃ t j', exec (.tuningPassComplete i) s = .next t ∧
        t.job i = some j' ∧ j'.n = j.n + 1 ∧ j'.running = false ∧ j'.feeds = j.feeds ∧ j'.window = .closing) ∧
      (j.passes.length ≤ 1 → j.closing = none → j.thin ≤ j.wsteps + 1 → j.late ≠ [] → j.ring = none → ∃ t j',
        exec (.tuningPassComplete i) s = .next t ∧ t.job i = some j' ∧ j'.n = j.n + 1 ∧ j'.late = j.late.drop 1 ∧ j'.wsteps = 0 ∧
        j'.feeds = j.feeds.drop 1) ∧
      (∀ c, j.passes.length ≤ 1 → j.closing = some (0, c) → j.ring = none → ∃ t j', exec (.tuningPassComplete i) s = .next t ∧
        t.job i = some j' ∧ j'.n = j.n + 1 ∧ j'.window = .closing)) ∧
    (j.running = true → ¬ on → j.broken = false → j.paused = true → j.closing = none → ∃ t j', exec (.tuningPassComplete i) s = .next t ∧
      t.job i = some j' ∧ j'.running = false ∧ j'.feeds = [] ∧ j'.paused = true) ∧
    (j.running = false ∨ on ∨ j.broken = true → exec (.tuningPassComplete i) s = .next s) ∧
    (j.window = .closing → j.running = false → j.updating = false → j.broken = false → j.ring = none →
      let s1 := s.fold i j
      let d := decision (s1.scan i j || s1.nonfinite j) j.sigma j.clean (s1.steps j) j.grow
      let lost := s.poisoned j.line (64 + s.bufLen i)
      (lost = true → exec (.windowEnd i) s = .next (s.setJob i { j with broken := true })) ∧
      (lost = false → d.1 = true → ∃ t j', exec (.windowEnd i) s = .next t ∧ t.job i = some j' ∧ j'.updating = true ∧ j'.sigma = d.2.1 ∧
        j'.clean = d.2.2.1 ∧ j'.left = (j.shards.filter fun h => 0 < h.count).map (·.die) ∧ j'.unwritten = List.range (s.jobBlocks i)) ∧
      (lost = false → d.1 = false → j.closing = none → j.ckReq = none → ∃ t j', exec (.windowEnd i) s = .next t ∧ t.job i = some j' ∧
        j'.updating = false ∧ j'.sigma = d.2.1 ∧ j'.clean = d.2.2.1 ∧ j'.window = .open ∧ j'.wsteps = 0 ∧ j'.windows = j.windows + 1 ∧
        j'.exchanges = j.exchanges + 1 ∧ j'.shards = j.shards ∧ j'.gen = j.gen)) ∧
    (j.window = .open ∨ j.running = true ∨ j.updating = true ∨ j.broken = true → exec (.windowEnd i) s = .next s) ∧
    (j.active = true → 8 ≤ j.windows → j.atBoundary = true → j.ring = none →
      (∀ n x, (n, x) ∈ s.jobs → n ≠ i → x.active = false → x.stage = j.stage → ∃ t j', exec (.jobRotation i) s = .next t ∧ t.job i = some j' ∧
        j'.windows = 0 ∧ j'.order = s.costumes.order + 1) ∧
      ((∀ n x, (n, x) ∈ s.jobs → n = i ∨ x.active = true ∨ x.stage ≠ j.stage) → exec (.jobRotation i) s = .next s)) ∧
    (j.active = false ∨ j.windows < 8 ∨ j.atBoundary = false ∨ j.ring ≠ none → exec (.jobRotation i) s = .next s) ∧
    (j.broken = true → s.storage.ops = [] →
      (∀ p b, j.ckStaged = true → s.stagedCk i = some p → s.openPackage "LGKP" p = some b → headStatus (ckImage b) = 0 →
        ∃ t j', exec (.tuningRollback i) s = .next t ∧ t.job i = some j' ∧ j'.broken = false ∧ j'.running = false ∧ j'.seed = j.seed ∧
          j'.n = fieldAt b 0x10 8 ∧ j'.exchanges = fieldAt b 0x18 8 ∧ j'.sigma = fieldAt b 0x24 1 ∧ j'.gen = fieldAt b 0x20 4 ∧
          j'.feeds = j.feeds.drop 1) ∧
      (∀ c n b l, s.stagedCk i = none ∨ j.ckStaged = false → j.ckStored = true → Table.find s.costumes.ckLoc i = some (c, n, b, l) →
        ∃ t x, exec (.tuningRollback i) s = .next t ∧ t.storage.ops = [x] ∧ x.controller = c ∧ x.nsid = n ∧ x.slba = b ∧ x.len = l ∧
          x.write = false ∧ t.jobs = s.jobs) ∧
      (s.stagedCk i = none ∨ j.ckStaged = false → Table.find s.costumes.ckLoc i = none ∨ j.ckStored = false →
        ∃ t j', exec (.tuningRollback i) s = .next t ∧ t.job i = some j' ∧ j'.broken = false ∧ j'.paused = true ∧ j'.feeds = [])) ∧
    (j.broken = false → exec (.tuningRollback i) s = .next s) ∧
    (∀ h, j.shards.find? (fun x => x.die = die) = some h → j.updating = true → j.left.contains die = true → s.altFree i j = true →
      ∃ t j', exec (.shardUpdate i die) s = .next t ∧ t.job i = some j' ∧ j'.left = j.left.filter (· ≠ die) ∧
        j'.unwritten = j.unwritten.filter (fun k => !(h.first ≤ k && k < h.first + h.count)) ∧ j'.updating = true ∧ j'.sigma = j.sigma ∧
        j'.shards.map (·.die) = j.shards.map (·.die) ∧ (∀ d, d ≠ die → t.die d = s.die d) ∧ (j.ring = none →
          let k := stepScalars j.opt h.p1 h.p2
          let c := s.samples j
          let cell : Nat → Cell4 := fun n => ⟨nth 0 h.master n, nth 0 h.lo n, nth 0 h.mom1 n, nth 0 h.mom2 n⟩
          let new : Nat → Cell4 × Nat := fun n => updateParam j.opt k (s.bufSigma j) c (s.word j (256 * h.first + n)) (cell n)
          let finite : Prop := ∀ n, n < 256 * h.count → (new n).1.finite (wfmt j.opt) = true
          let own := j'.shards.find? fun x => x.die = die
          (c = 0 → own = some h ∧ (t.die die).ueFlags = (s.die die).ueFlags ∧ (t.die die).skipped = min (s.die die).skipped 0xFFFFFFFF) ∧
          (c ≠ 0 → 0 < h.count → h.count ≤ (16 * 2 ^ 20 - 64) / blockBytes j.opt →
            (¬ finite → (t.die die).skipped = min ((s.die die).skipped + 1) 0xFFFFFFFF ∧ ∃ h', own = some h' ∧ h'.kupd = h.kupd ∧
              h'.gen = h.gen ∧ ∀ n, n < 256 * h.count → nth 0 h'.master n = nth 0 h.master n ∧
                (precOf j.opt = 1 → nth 0 h'.lo n = nth 0 h.lo n) ∧ (1 ≤ optOf j.opt → nth 0 h'.mom1 n = nth 0 h.mom1 n) ∧
                (optOf j.opt = 2 → nth 0 h'.mom2 n = nth 0 h.mom2 n)) ∧
            (finite → (t.die die).skipped = min (s.die die).skipped 0xFFFFFFFF ∧ ∃ h', own = some h' ∧ h'.gen = j.gen + 1 ∧
              (optOf j.opt = 2 → h'.kupd = h.kupd + 1 ∧ h'.p1 = k.p1 ∧ h'.p2 = k.p2) ∧ (optOf j.opt ≠ 2 → h'.kupd = h.kupd) ∧
              (∀ n, n < 256 * h.count → nth 0 h'.master n = (new n).1.th ∧ (precOf j.opt = 1 → nth 0 h'.lo n = (new n).1.lo) ∧
                (1 ≤ optOf j.opt → nth 0 h'.mom1 n = (new n).1.m) ∧ (optOf j.opt = 2 → nth 0 h'.mom2 n = (new n).1.v)) ∧
              ∀ r off len, h.count = 1 → j.follow = [] → s.resident j.stage i = some r → r.st = .resident → r.alt ≠ 0 →
                placeOf (s.imageHead r.alt) h.first = .vec off len →
                let body := (serveBlock j.opt (s.isHead i h.first) (h'.master.take 256)).1.take len
                r.alt + off + body.length ≤ stagingBase → t.readBytes (r.alt + off) body.length = body)))) ∧
    (∀ (o : Bytes) (x : Cell4) (sigma c g : Nat), precOf o = 0 → optOf o ≤ 1 →
      let rm := rmOf o
      let lr := (scalar o 0x08).1
      let div := (Fp.div .f32 rm g (Fp.round .f32 rm false c 0 false).1).1
      let gr := (Fp.mul .f32 rm div (Fp.round .f32 0 false 1 (-(sigma : Int)) false).1).1
      let m := (Fp.fma .f32 rm (scalar o 0x10).1 x.m gr).1
      let y := (updateParam o (stepScalars o 0 0) sigma c g x).1
      y.m = (if optOf o = 1 then m else x.m) ∧ y.v = x.v ∧ y.lo = x.lo ∧
        y.th = (Fp.sub .f32 rm x.th (Fp.mul .f32 rm lr (if optOf o = 1 then m else gr)).1).1) ∧
    (j.left.contains die = false → exec (.shardUpdate i die) s = .next s) ∧
    (j.updating = true → j.left = [] → j.unwritten = [] → s.altFree i j = true → j.ring = none → j.closing = none → j.ckReq = none → j.follow = [] →
      j.window = .closing →
      ∃ t j', exec (.publicationSwitch i) s = .next t ∧ t.job i = some j' ∧ j'.updating = false ∧ j'.updates = j.updates + 1 ∧
        j'.gen = ((s.entry i).gen + 1) % 2 ^ 32 ∧ (t.entry i).gen = ((s.entry i).gen + 1) % 2 ^ 32 ∧ j'.window = .open ∧ j'.wsteps = 0 ∧
        (∀ r, s.resident j.stage i = some r → r.st = .resident → r.alt ≠ 0 →
          t.resident j.stage i = some { r with addr := r.alt, alt := r.addr, gen := ((s.entry i).gen + 1) % 2 ^ 32 })) ∧
    (j.updating = false → exec (.publicationSwitch i) s = .next s)

/-- Tier 2. The timed events of an exchange on a member: a block of its last pass becomes final once every addition of
the pass that the module counts for it has landed; the deadline fixes
its presence; an owned block whose packet does not come is finished as an empty packet leaves it; a member without lap
2 starts the next attempt; a block without its PARAM is kept and counted as frozen; a joiner without an answer leaves,
with DESC_TYPE where a REFUSE had come that it could not yet verify.
Outside the state that the event waits for, nothing happens (R334, R341, R343, R347, R350, R353). BLOCK_FINAL,
DEADLINE_EXPIRY, HOLD_EXPIRY, VERDICT_TIMEOUT, PARAM_TIMEOUT and JOIN_TIMEOUT answer a next state in each of these
cases. -/
def Obligations.RingEvents : Prop :=
  ∀ (i block : Nat) (s : State),
    (∀ j r, s.job i = some j → j.member = some r →
      (r.held = [] → r.opened = true → r.present = some true → r.final.contains block = false → block < s.jobBlocks i →
        s.hasLanded i block j = true → r.folded = true ∨ (s.foldsFirst i block = false ∧ (j.window = .closing ∨ (j.running = true ∧ j.passes.length = 1))) →
        ∃ t j' r', exec (.blockFinal i block) s = .next t ∧ t.job i = some j' ∧ j'.ring = some r' ∧ r'.final = block :: r.final ∧
          r'.present = r.present ∧ r'.done = r.done ∧ s.sameBytes t) ∧
      (r.opened = false ∨ r.final.contains block = true ∨ s.hasLanded i block j = false → exec (.blockFinal i block) s = .next s) ∧
      (∀ v n g, s.hasLanded i block j = true → v ∈ s.blockVectors i block → n < ceilDiv v.2.2 128 → g ∈ j.due →
        (v.1, v.2.1, n, g) ∈ j.landed) ∧
      (r.held = [] → r.opened = true → r.late = false → ∃ t j' r', exec (.deadlineExpiry i) s = .next t ∧ t.job i = some j' ∧
        j'.ring = some r' ∧ r'.late = true ∧ r'.present = some (r.present.getD false)) ∧
      (r.opened = false ∨ r.late = true → exec (.deadlineExpiry i) s = .next s) ∧
      (r.held = [] → r.opened = true → r.present = some false → r.decided = none → s.ownerOf i r block = r.slot → block < s.jobBlocks i →
        Table.find r.done block = none →
        ∃ t j' r' d, exec (.holdExpiry i block) s = .next t ∧ t.job i = some j' ∧ j'.ring = some r' ∧ Table.find r'.done block = some d ∧
          d.samples = 0 ∧ d.words.length = 256 ∧ s.sameBytes t) ∧
      (Table.find r.done block ≠ none ∨ s.ownerOf i r block ≠ r.slot → exec (.holdExpiry i block) s = .next s) ∧
      (r.decided = none → s.verdictReady i j r = true → r.attempt < 255 → ∃ t j' r', exec (.verdictTimeout i) s = .next t ∧
        t.job i = some j' ∧ j'.ring = some r' ∧ r'.attempt = r.attempt + 1 ∧ r'.lap1Sent = true ∧ r'.seen = some (r.attempt + 1, r.slot) ∧ s.sameBytes t) ∧
      (r.decided ≠ none → exec (.verdictTimeout i) s = .next s) ∧
      (r.held = [] → j.updating = true → r.decided ≠ none → j.unwritten.contains block = true → s.ownerOf i r block ≠ r.slot →
        s.altFree i j = true → ∃ t j' r', exec (.paramTimeout i block) s = .next t ∧ t.job i = some j' ∧
          j'.unwritten = j.unwritten.filter (· ≠ block) ∧ j'.ring = some r' ∧ r'.stat.frozen = min (r.stat.frozen + 1) 0xFFFFFFFF) ∧
      (j.unwritten.contains block = false → exec (.paramTimeout i block) s = .next s)) ∧
    (∀ j r, s.job i = some j → j.ring = some r →
      (∀ c, r.joining = some c → ∃ y : State,
        exec (.joinTimeout i) s = .next (y.finish c (if r.early = [] then 0x0402 else 0x0104)) ∧ y.job i = some { j with ring := none } ∧
        s.sameBytes y) ∧
      (r.joining = none → exec (.joinTimeout i) s = .next s)) ∧
    (s.job i = none → ∀ x, x ∈ ([.blockFinal i block, .deadlineExpiry i, .holdExpiry i block, .verdictTimeout i, .paramTimeout i block,
      .joinTimeout i] : List Instr) → exec x s = .next s)

/-- Tier 2. A ring frame in order at port A of a plane, whose ring a job of the module has and whose tag verifies
under the sender's key, is dealt with by that member; one whose tag fails counts as TAG_FAILS and changes nothing else
of the job; one at port B goes back on its plane. What each type does to a member: OPEN opens the exchange; FORM names
the predecessor and completes the join, unless the predecessor's own predecessor has the joiner's slot; REFUSE ends
the join with DESC_TYPE; LEAVE puts the predecessor's predecessor in its place; lap 2 of a VERDICT carries the
decision; a REDUCE packet of an absent member is finished where the member owns its block and forwarded otherwise, and
one that comes after the decision is late; a PARAM is written into the other buffer once, its body or the bytes of the
current buffer where it says that the block is unchanged (R324, R330, R334-R336, R340,
R345, R347, R349, R353). When a member sends its own FORM is the model's choice (log 29). OPEN, FORM, REFUSE, LEAVE,
VERDICT, REDUCE and PARAM frames answer a next state in each of these cases. -/
def Obligations.RingFrames : Prop :=
  (∀ (f : FrameIn) (s : State),
    let b := f.bytes
    let rows : List (Nat × Instr) := [(0x10, .openFrame f), (0x11, .form f), (0x12, .refuse f), (0x13, .leave f), (0x14, .verdict f),
      (0x18, .reduce f), (0x19, .param f)]
    ∀ x, x ∈ rows → fType b = x.1 → f.port < 2 * s.dev.part.lds → (s.port f.port).up = true → (s.port f.port).inOrder b = true →
      (f.port % 2 = 1 → (s.port (f.port - 1)).up = true → (s.port (f.port - 1)).wrap = false →
        exec x.2 s = .next (s.received f.port b fun y => y.sendFrames (f.port - 1) [b])) ∧
      (∀ (i : Nat) (j : Job) (r : Ring), f.port % 2 = 0 → s.jobs = [(i, j)] → j.ring = some r → r.joining = none → r.id = fRing b →
        (∀ p, r.decrypt b = some p → exec x.2 s = .next (s.received f.port b fun y =>
          ((if x.1 = 0x11 then y else y.noteSender i r (fSender b)).ringDeal i (b.take 0x40 ++ p)).settleRing i)) ∧
        (r.decrypt b = none → ∃ t, exec x.2 s = .next t ∧ s.sameBytes t ∧
          t.job i = some { j with ring := some (r.add 6 1) } ∧ (t.port f.port).rxSeq = fSeq b))) ∧
  ∀ (s : State) (i : Nat) (j : Job) (r : Ring) (b : Bytes), s.job i = some j → j.ring = some r →
    let t := s.ringDeal i b
    let now : Prop := fXnum b = j.exchanges % 2 ^ 32
    let k := fBlock b
    let back := slice (fBody b) 64 32
    let taken : Prop := fieldAt (fBody b) 96 2 = r.slot ∧ allZero back = false ∧ (back == r.salt) = false
    (fType b = 0x10 → r.joining = none → now → ∃ j' r', t.job i = some j' ∧ j'.ring = some r' ∧ r'.opened = true ∧ s.sameBytes t) ∧
    (∀ c, fType b = 0x11 → r.joining = some c → fSender b ≠ r.slot → r.early = [] → ¬ taken → ∃ j' r', t.job i = some j' ∧ j'.ring = some r' ∧
      r'.joining = none ∧ r'.pred = some (fSender b, slice (fBody b) 32 32)) ∧
    (∀ c, fType b = 0x11 → r.joining = some c → fSender b ≠ r.slot → taken → ∃ y : State, t = y.finish c 0x0104 ∧
      y.job i = some { j with ring := none }) ∧
    (∀ c, fType b = 0x12 → r.joining = some c → ∃ y : State, t = y.finish c 0x0104 ∧ y.job i = some { j with ring := none }) ∧
    (fType b = 0x13 → t = s.setJob i { j with ring := some { r with pred := r.pred2, pred2 := none, formDue := true } }) ∧
    (fType b = 0x14 → bit (fSamples b) 2 = true → k ≠ r.slot → now → r.joining = none → r.decided = none → j.closing = none →
      ∃ j', t.job i = some j' ∧ j'.sigma = fieldAt (fBody b) 0 4 ∧ j'.clean = fieldAt (fBody b) 4 2 ∧
        (bit (fSamples b) 1 = true → j'.updating = true)) ∧
    (fType b = 0x18 → now → r.opened = true → r.present = some false → r.decided = none → r.sent.contains k = false →
      Table.find r.done k = none →
      (s.ownerOf i r k = r.slot → s.sameBytes t ∧ ∃ j' r' d, t.job i = some j' ∧ j'.ring = some r' ∧ Table.find r'.done k = some d ∧
        d.samples = fSamples b) ∧
      (s.ownerOf i r k ≠ r.slot → ∃ j' r', t.job i = some j' ∧ j'.ring = some r' ∧ r'.sent = k :: r.sent ∧ s.sameBytes t)) ∧
    (fType b = 0x18 → now → (s.ownerOf i r k ≠ r.slot ∧ r.sent.contains k = true) ∨ Table.find r.done k ≠ none ∨ r.decided ≠ none → t = s.setJob i { j with ring := some (r.add 1 1) }) ∧
    (fType b = 0x19 → now → s.ownerOf i r k ≠ r.slot → r.decided ≠ none → s.altFree i j = true → j.unwritten.contains k = true →
      r.forwarded.contains (k, fHalf b) = false →
      let two := s.twoHalves i j k
      let body := if fUnchanged b then s.keptBlock i j k else (fBody b).take (if s.isHead i k then 132 else 256)
      (∃ j' r', t.job i = some j' ∧ j'.ring = some r' ∧ r'.forwarded = (k, fHalf b) :: r.forwarded ∧
        j'.unwritten = if two = false ∨ r.forwarded.contains (k, !fHalf b) = true then j.unwritten.filter (· ≠ k) else j.unwritten) ∧
      ∀ x, j.follow = [] → s.resident j.stage i = some x → x.st = .resident → x.alt ≠ 0 →
        (∀ off len, placeOf (s.imageHead x.alt) k = .vec off len →
          (two = false ∨ fUnchanged b = true → x.alt + off + (body.take len).length ≤ stagingBase →
            t.readBytes (x.alt + off) (body.take len).length = body.take len) ∧
          (two = true → fUnchanged b = false →
            let part := (fBody b).take 256
            let at_ := x.alt + off + 256 * b2n (fHalf b)
            at_ + part.length ≤ stagingBase → t.readBytes at_ part.length = part)) ∧
        ∀ el hd su, placeOf (s.imageHead x.alt) k = .head el hd su → two = false → el + 128 ≤ hd → hd + 4 ≤ su → x.alt + su ≤ stagingBase →
          t.readBytes (x.alt + el) (body.take 128).length = body.take 128 ∧
          t.readLE (x.alt + hd) 4 = reTag (fieldAt body 128 4) (brickTag (x.alt + el)) % 2 ^ 32)

/-- Tier 2. A frame in order at an up port becomes the port's latest received frame; any other is discarded, and a NAK
is due or has gone out. A frame of a reserved type adds 1 to TAG_FAILS of its ring. A PIPE frame is its route's whose
run it names, and is written at its address where that route admits it; one for a stage that is not READY is counted
as GONE and writes nothing. A port goes down after 16 failed retransmissions or a lost lock and wraps its plane; a
trained port starts with fresh sequence numbers, unless it is cabled to a port of its own kind; a frame that fails
parity is asked for again (R324, R326, R328, R329, R374, R397, R469, R522). The numbering after training is the
model's choice (log 12). PORT_DOWN, PORT_TRAINED, RECEIVER_LOCK_CHANGE, FRAME_PARITY_FAILURE, IDLE, PIPE and
RESERVED_FRAME answer a next state in each of these cases. -/
def Obligations.Frames : Prop :=
  (∀ (f : FrameIn) (s : State),
    let b := f.bytes
    let p := s.port f.port
    let rows : List (Nat × Instr) := [(0, .idle f), (1, .pipe f), (0x10, .openFrame f), (0x11, .form f), (0x12, .refuse f), (0x13, .leave f),
      (0x14, .verdict f), (0x18, .reduce f), (0x19, .param f)]
    ∀ i, ((fType b, i) ∈ rows ∨ (reservedType (fType b) = true ∧ i = .reservedFrame f)) → f.port < 2 * s.dev.part.lds → p.up = true →
      (fSeq b = (p.rxSeq + 1) % 2 ^ 16 → ∃ t, exec i s = .next t ∧ (t.port f.port).rxSeq = fSeq b ∧ (t.port f.port).up = true) ∧
      (fSeq b ≠ (p.rxSeq + 1) % 2 ^ 16 → ∃ t, exec i s = .next t ∧ (t.port f.port).rxSeq = p.rxSeq ∧ t.jobs = s.jobs ∧
        t.stages = s.stages ∧ s.sameBytes t ∧ ((∀ w, w ∈ p.waiting → w ≠ []) → s.asksAgain t f.port)) ∧
      (∀ k j r, reservedType (fType b) = true → i = .reservedFrame f → fSeq b = (p.rxSeq + 1) % 2 ^ 16 → s.jobs = [(k, j)] →
        j.ring = some r → r.joining = none → r.id = fRing b → ∃ t j' r', exec i s = .next t ∧ t.job k = some j' ∧ j'.ring = some r' ∧
          r'.stat.tagFails = min (r.stat.tagFails + 1) 0xFFFFFFFF ∧ s.sameBytes t)) ∧
  (∀ (f : FrameIn) (s : State) (k : Nat) (r r' : InRoute) (o : Option Bytes),
    let b := f.bytes
    let g := bits (fRing b) 0 4
    let x := s.stage g
    fType b = 1 → f.port < 2 * s.dev.part.lds → (s.port f.port).up = true → fSeq b = ((s.port f.port).rxSeq + 1) % 2 ^ 16 →
      let mine : InRoute → Bool := fun r => r.port = f.port && r.peer = fSender b
      let names : InRoute → Bool := fun r => r.first * 0x400_0000 ≤ pipeAddr b && pipeAddr b < (r.first + r.count) * 0x400_0000
      (x.ins.findIdx? (fun r => mine r && names r) = some k ∨
        (x.ins.findIdx? (fun r => mine r && names r) = none ∧ x.ins.findIdx? mine = some k)) → x.ins[k]? = some r →
      r.arrives ((x.model.map (·.segSeed)).getD []) g x.st b = (r', o) →
      ∃ t, exec (.pipe f) s = .next t ∧ t.stage g = { x with ins := x.ins.set k r' } ∧
        (o = none → s.sameBytes t) ∧ (x.st ≠ 2 → o = none ∧ r'.gone = min (r.gone + 1) 0xFFFFFFFF) ∧
        ∀ body, o = some body → (∀ n, n < body.length → t.readByte (pipeAddr b + n) = nth 0 body n) ∧
          ∀ a, a < pipeAddr b ∨ pipeAddr b + body.length ≤ a → t.readByte a = s.readByte a) ∧
  ∀ (n : Nat) (s : State), n < 2 * s.dev.part.lds →
    let p := s.port n
    let pipe : Bytes → Bool := fun b => fType b = 1
    (p.trained = true →
      (16 ≤ p.fails ∨ p.lockLost = true → p.up = true → exec (.portDown n) s = .next (s.portDown n)) ∧
      (s.jobs = [] → p.up = true → ((s.portDown n).port n).up = false ∧ ((s.portDown n).port n).wrap = true ∧
        ((s.portDown n).port n).trained = false ∧ ((s.portDown n).port n).rxSeq = 0xFFFF ∧
        ((s.portDown n).port n).retrans = p.retrans.filter pipe) ∧
      (16 ≤ p.fails ∨ p.lockLost = true → p.up = false → exec (.portDown n) s = .next (s.setPort n { p with trained := false, lockLost := false })) ∧
      (p.fails < 16 → p.lockLost = false → exec (.portDown n) s = .next s) ∧
      (∀ ok, exec (.receiverLockChange n ok) s = .next (s.setPort n { p with lockLost := !ok })) ∧
      ∀ alike, exec (.portTrained ⟨n, alike⟩) s = .next s) ∧
    (p.trained = false →
      (s.power.phase ≠ .off → (∃ t, exec (.portTrained ⟨n, false⟩) s = .next t ∧ (t.port n).up = true ∧ (t.port n).rxSeq = 0xFFFF ∧
        (t.port n).trained = true ∧ (t.port n).nak = false ∧ (t.port n).fails = 0 ∧ (s.exchanging (n / 2) = false → (t.port n).wrap = false)) ∧
        (p.up = false → exec (.portTrained ⟨n, true⟩) s = .next (s.setPort n { p with trained := true }))) ∧
      (s.power.phase = .off → ∀ alike, exec (.portTrained ⟨n, alike⟩) s = .next s) ∧
      exec (.portDown n) s = .next s ∧ ∀ ok, exec (.receiverLockChange n ok) s = .next s) ∧
    (p.up = true →
      let die := 88 + n / 2
      ∃ t, exec (.frameParityFailure n) s = .next t ∧ (t.port n).rxSeq = p.rxSeq ∧ s.sameBytes t ∧
         ((∀ w, w ∈ p.waiting → w ≠ []) → s.asksAgain t n) ∧
         (t.die die).correctable = min ((s.die die).correctable + 1) 0xFFFFFFFF ∧
         ∃ e, e ∈ (t.die die).log ∧ e.source = 3 ∧ e.addr = 256 * die + n % 2 ∧ e.status = 0x0701 ∧ e.unrec = false) ∧
    (p.up = false → exec (.frameParityFailure n) s = .next s)

/-! ### Parity, scrubbing and fences -/

/-- Tier 2. A line of frozen data whose re-reads fail is written again from its source and counted as corrected; a
WEIGHTS line that its package no longer gives is poisoned and its stage loses the model; a costume image is loaded
again into free pages, and its old pages enter SCRUBBING; a line of other data is poisoned, and an accumulator slot's
poisons its chain. A run of an update engine is streamed again whole, or its shard is withheld. A replayed instruction
that succeeds delivers the same results, and what a VEC instruction counts is counted again; one that fails completes
with PARITY_UNRECOVERED. A scrub read that finds an error counts it, and poisons a line of mutable data; a scrubber
reads each line once in a pass or period. A scrub pass begins on a stage at rest and ends with its summary (R474-R476,
R478, R484-R487). That a refetch ends in one step and that a pass ends when presented again are the model's choices
(log 30, log 32). REFETCH, INSTRUCTION_REPLAY and BACKGROUND_SCRUB_READ answer a next state in each of these cases. -/
def Obligations.ParityAndScrubs : Prop :=
  ∀ (g a cl unit : Nat) (s : State),
    let die := s.dev.part.dieOfAddr a
    let up : Nat → Nat := fun n => min (n + 1) 0xFFFFFFFF
    (∀ l, s.stageOfLine a = some g → s.lineAt g a = some l →
      (∀ x, l = .weights → s.poison.contains a = false → s.weightsLine g a = some x → ∃ t, exec (.refetch a) s = .next t ∧ x.sameBytes t ∧
        (t.die die).correctable = up (s.die die).correctable ∧ ∀ b, b < a ∨ a + 64 ≤ b → t.readByte b = s.readByte b) ∧
      (l = .weights → s.poison.contains a = false → s.weightsLine g a = none → (s.stage g).step = none → ∃ t, exec (.refetch a) s = .next t ∧
        t.poison.contains a = true ∧ (t.stage g).model = none ∧ (t.die die).unrecovered = up (s.die die).unrecovered ∧ s.sameBytes t) ∧
      (∀ r b, l = .wardrobe → s.poison.contains a = false → s.imageAt g a = some r → r.unplaced = false → s.leases g r.index = 0 →
        s.findRun g r.pages = some b → ∃ t r', exec (.refetch a) s = .next t ∧ t.resident g r.index = some r' ∧ r'.st = .loadingDemand ∧
          r'.addr = b ∧ r'.pages = r.pages ∧ r'.line = some a ∧ (⟨g, r.index, r.addr, r.pages⟩ : Scrub) ∈ t.costumes.scrubs ∧ s.sameBytes t) ∧
      (l = .tables → s.poison.contains a = false → ∃ t, exec (.refetch a) s = .next t ∧ s.sameBytes t ∧
        (t.die die).correctable = up (s.die die).correctable) ∧
      (∀ c n k, l = .mutable ∨ l = .slot c n k → s.poison.contains a = false → ∃ t, exec (.refetch a) s = .next t ∧ s.sameBytes t ∧
        t.poison.contains a = true ∧ (t.die die).unrecovered = up (s.die die).unrecovered ∧ (t.die die).poisoned = up (s.die die).poisoned ∧
        (l = .mutable → t.clusters = s.clusters) ∧
        ∀ b, l = .slot c n k → ((((s.cluster c).arr n).chains.find? fun x => x.2.st = 1 && (x.2.slots x.1).contains k).map (·.1)) = some b →
          t.chainOf c n b = (s.chainOf c n b).poison 0x0702) ∧
      (s.poison.contains a = true → exec (.refetch a) s = .next s)) ∧
    (∀ i j h, s.updatesOn (cl / 16) = some (i, j, h) →
      (∃ t, exec (.instructionReplay cl 10 true) s = .next t ∧ s.sameBytes t ∧ t.jobs = s.jobs ∧
        (t.die (cl / 16)).correctable = up (s.die (cl / 16)).correctable) ∧
      ∃ t j', exec (.instructionReplay cl 10 false) s = .next t ∧ t.job i = some j' ∧ j'.left = j.left.filter (· ≠ cl / 16) ∧
        j'.shards.find? (fun x => x.die = cl / 16) = some h ∧ (t.die (cl / 16)).unrecovered = up (s.die (cl / 16)).unrecovered ∧
        (t.die (cl / 16)).skipped = min ((s.die (cl / 16)).skipped + if h.count = 0 then 0 else 1) 0xFFFFFFFF) ∧
    (∀ ok, s.updatesOn (cl / 16) = none → exec (.instructionReplay cl 10 ok) s = .next s) ∧
    (∀ ok, unit ≠ 10 → s.working cl unit = none → exec (.instructionReplay cl unit ok) s = .next s) ∧
    (∀ e, s.working cl unit = some e → 1 ≤ unit → unit ≤ 9 → cl / 16 < s.dev.part.cds →
      (∃ t, exec (.instructionReplay cl unit true) s = .next t ∧ t.clusters = s.clusters ∧ t.stages = s.stages ∧
        (∀ b, (∀ q, q ∈ e.quant → b < q.1 + 0x30 ∨ q.1 + 0x3C ≤ b) → t.readByte b = s.readByte b) ∧
        t.unitQueue cl unit = s.unitQueue cl unit ∧ (t.die (cl / 16)).correctable = up (s.die (cl / 16)).correctable ∧
        (unit = 7 → (s.die (cl / 16)).formatReserved < 2 ^ 32 → (t.die (cl / 16)).formatReserved = min ((s.die (cl / 16)).formatReserved + nth 0 e.counts 0) 0xFFFFFFFF ∧
          (t.die (cl / 16)).narrow = min ((s.die (cl / 16)).narrow + nth 0 e.counts 1) 0xFFFFFFFF ∧
          (t.die (cl / 16)).legacy = min ((s.die (cl / 16)).legacy + nth 0 e.counts 2) 0xFFFFFFFF)) ∧
      (∃ t, exec (.instructionReplay cl unit false) s = .next t ∧ s.sameBytes t ∧
        t.unitQueue cl unit = (s.unitQueue cl unit).map fun x => if x = e then { x with status := 0x0702, parity := true } else x)) ∧
    (∀ l, g < 16 → 2 ≤ (s.stage g).st → (s.stage g).scrub ≠ none ∨ ((s.stage g).cfg.map (·.background)).getD false = true →
      s.lineAt g a = some l → s.slotBusy l = true ∨ (posOf (s.scrubbers g).2 die).may a = false →
      ∀ f, exec (.backgroundScrubRead g a f) s = .next s) ∧
    (∀ l, g < 16 → 2 ≤ (s.stage g).st → (s.stage g).scrub ≠ none ∨ ((s.stage g).cfg.map (·.background)).getD false = true →
      s.lineAt g a = some l → s.slotBusy l = false → (posOf (s.scrubbers g).2 die).may a = true →
      (s.poison.contains a = false → exec (.backgroundScrubRead g a .good) s = .next (s.scrubMoved g a)) ∧
      (s.poison.contains a = true → exec (.backgroundScrubRead g a .poisoned) s = .next (s.scrubMoved g a)) ∧
      ((posOf (s.scrubbers g).2 die).skipped = [] → (posOf ((s.scrubMoved g a).scrubbers g).2 die).may a = false) ∧
      (s.poison.contains a = false → ∃ t, exec (.backgroundScrubRead g a .transient) s = .next t ∧ s.sameBytes t ∧ t.poison = s.poison ∧
        (t.die die).correctable = up (s.die die).correctable ∧
        ∀ j, (s.stage g).scrub = some j → ∃ j', (t.stage g).scrub = some j' ∧ j'.reread = up j.reread ∧ j'.dies.contains die = true) ∧
      (s.poison.contains a = false → l = .mutable → ∃ t, exec (.backgroundScrubRead g a .persistent) s = .next t ∧ s.sameBytes t ∧
        t.poison.contains a = true ∧ (t.die die).unrecovered = up (s.die die).unrecovered ∧ (t.die die).poisoned = up (s.die die).poisoned)) ∧
    ((s.stage g).scrub = none → ((s.stage g).cfg.map (·.background)).getD false = false → ∀ f, exec (.backgroundScrubRead g a f) s = .next s) ∧
    (∀ c : HostCmd, s.answers (.scrubPass c) c 0x50 (fun k t u =>
      let n := k.arg 0 1
      let x := t.stage n
      let st := if x.st = 4 then (if t.rerigged k n then 0x0502 else 0) else t.stageFor k n
      let bad := t.poison.filter fun l => (t.lineAt n l).isSome
      (x.scrub = none → st ≠ 0 → u = t.finish k.ref st) ∧
      (x.scrub = none → st = 0 → x.step ≠ none → u = t.hold k false) ∧
      (x.scrub = none → st = 0 → x.step = none → ∃ j : ScrubJob,
        u = (t.setStage n { x with scrub := some j }).hold k false ∧ j.cmd = k.ref ∧ j.start = t.now ∧ j.reread = 0 ∧ j.refetched = 0 ∧
          j.poisoned = 0 ∧ j.found = bad.length ∧ j.pos = [] ∧ ∀ d, j.dies.contains d = true ↔ ∃ l, l ∈ bad ∧ t.dev.part.dieOfAddr l = d) ∧
      (∀ j, x.scrub = some j → j.cmd ≠ k.ref → u = if st ≠ 0 then t.finish k.ref st else t.hold k false) ∧
      (∀ j, x.scrub = some j → j.cmd = k.ref →
        let r := t.scrubSummary n j
        u = ((t.result k false r).finish k.ref 0).scrubOver n ∧ r.length = 128 ∧ fieldAt r 0 1 = n % 256 ∧ fieldAt r 8 8 = j.start % 2 ^ 64 ∧
          fieldAt r 0x18 8 = t.scrubLines n % 2 ^ 64 ∧ fieldAt r 0x20 4 = j.reread % 2 ^ 32 ∧ fieldAt r 0x24 4 = j.refetched % 2 ^ 32 ∧
          fieldAt r 0x28 4 = j.poisoned % 2 ^ 32 ∧ fieldAt r 0x2C 4 = j.found % 2 ^ 32)))

/-- Tier 2. A fence proposal records its cause on a die whose condition holds and moves no stage; a fence, for which
the rules give the cause 0x05, marks the die as fenced, sets EVT.FENCE, and leaves every stage that does not name the
die; a READY stage that names it is READY no longer, what has issued and uses the die completes with DIE_FENCED, and a
stage in RIGGING or QUIESCED that names it becomes UNRIGGED with its epoch increased; a second fence changes nothing.
A link or system die is not fenced, nor any die that is held in reset (R392, R397, R489, R490). FENCE_PROPOSAL and
DIE_FENCE answer a next state in each of these cases. -/
def Obligations.Fences : Prop :=
  ∀ (die cause : Nat) (s : State),
    let d := s.die die
    (s.dev.part.hasDie die = true → d.fenced = false → (d.proposed = false ∨ d.cause ≠ cause) → s.proposable die cause = true →
      ∃ t, exec (.fenceProposal die cause) s = .next t ∧ t.die die = { d with proposed := true, cause := cause } ∧
        t.host.evt.getLsbD 3 = true ∧ t.stages = s.stages ∧ s.sameBytes t) ∧
    (d.fenced = true ∨ s.proposable die cause = false → exec (.fenceProposal die cause) s = .next s) ∧
    (s.diesRun = true → s.dev.part.hasDie die = true → die < 88 → d.fenced = false →
      (∃ t, exec (.dieFence die) s = .next t ∧ (t.die die).fenced = true ∧ (t.die die).cause = 5 ∧ t.host.evt.getLsbD 3 = true) ∧
      ((∀ g, g < 16 → s.namesDie g die = false) → ∃ t, exec (.dieFence die) s = .next t ∧ t.stages = s.stages ∧ s.sameBytes t) ∧
      (∀ g, g < 16 → (∀ n, n ≠ g → s.namesDie n die = false) → s.namesDie g die = true →
        ((s.stage g).st = 3 → ∃ t, exec (.dieFence die) s = .next t ∧ t.stage g = { s.stage g with why := .fence } ∧
          ∀ cl, cl ∈ s.stageClusters g → t.unitQueue cl 7 = (s.unitQueue cl 7).map fun e =>
            if e.status = 0 && (s.usesDies e).contains die then { e with status := 0x0703, taken := none } else e) ∧
        ((s.stage g).st = 2 → (s.stage g).scrub = none → ∃ t, exec (.dieFence die) s = .next t ∧ (t.stage g).st ≠ 2) ∧
        ((s.stage g).st = 4 → (s.stage g).scrub ≠ none → ∃ t, exec (.dieFence die) s = .next t ∧
          t.stage g = { s.stage g with why := .fence }) ∧
        ((s.stage g).st = 4 → (s.stage g).scrub = none → s.rig = none → ∃ t, exec (.dieFence die) s = .next t ∧ (t.stage g).st = 0 ∧
          (t.stage g).epoch = (if (s.stage g).epoch = 0xFFFFFFFF then 0xFFFFFFFF else (s.stage g).epoch + 1)) ∧
        (∀ r m, (s.stage g).st = 1 → s.rig = some r → r.current = some g → r.todo = [] → parseImage s.dev.part r.image = some m →
          ∃ t, exec (.dieFence die) s = .next t ∧ t.rig = none ∧ (t.stage g).st = 0 ∧
            (t.stage g).epoch = (if (s.stage g).epoch = 0xFFFFFFFF then 0xFFFFFFFF else (s.stage g).epoch + 1)))) ∧
    (d.fenced = true ∨ 88 ≤ die ∨ s.diesRun = false → exec (.dieFence die) s = .next s)

/-! ### The storage port, sensors and the management port -/

/-- Tier 2. Enumeration runs once, from 100 ms after STOR_PERST# has risen, and takes at most 16 controllers; a
storage command that fails is issued once more, with the same range and in the next I/O queue of its controller, and
one that fails again ends the host command it was for with PARITY_UNRECOVERED and its status in RESULT1, and a load
leaves its costume SCRUBBING; a controller that is reset is given its commands anew, as first issues; a registration
whose package passes the checks makes the entry REGISTERED, a package read for a load is at hand for it, and a
checkpoint that is written completes its command (R269, R271, R315, R438-R440). When STOR_PERST# changes is the
model's choice (log 35). STORAGE_ENUMERATION, NVME_COMPLETION, NVME_TIMEOUT and NVME_CONTROLLER_FATAL answer a next
state in each of these cases. -/
def Obligations.StoragePort : Prop :=
  ∀ (s : State) (id status : Nat) (data : Bytes),
    let ops := s.storage.ops
    (∀ l, s.power.supplyValid = true → s.power.storPerst = false → s.power.resetAt + storPerstTime + 100000000 ≤ s.now →
      s.storage.enumerated = false → ∃ t, exec (.storageEnumeration l) s = .next t ∧
      t.storage.enumerated = true ∧ t.storage.controllers.length = min 16 l.length ∧ t.power = s.power ∧ t.storage.ops = ops ∧
      ∀ x, x ∈ t.storage.controllers → ∃ y, y ∈ l ∧ x.namespaces = y.namespaces ∧ x.granted = min y.granted (64 / min 16 l.length)) ∧
    (∀ l, s.storage.enumerated = true ∨ s.power.storPerst = true → exec (.storageEnumeration l) s = .next s) ∧
    (s.nvmeOp id = none → exec (.nvmeCompletion id status data) s = .next s ∧ exec (.nvmeTimeout id) s = .next s) ∧
    (∀ o, s.nvmeOp id = some o →
      let rest := ops.filter fun x => x.id ≠ id
      let again := { o with id := s.storage.nextId, second := true, queue := o.queue % s.nvmeQueues o.controller + 1 }
      (o.second = false → status % 65536 ≠ 0 → ∃ t, exec (.nvmeCompletion id status data) s = .next t ∧ t.storage.ops = rest ++ [again] ∧
        t.storage.nextId = s.storage.nextId + 1 ∧ t.wire = .nvme again :: s.wire ∧ s.sameBytes t) ∧
      (o.second = false → ∃ t, exec (.nvmeTimeout id) s = .next t ∧ t.storage.ops = rest ++ [again] ∧ t.wire = .nvme again :: s.wire ∧
        s.sameBytes t) ∧
      (∀ qp c i, o.purpose = .register qp c i → o.second = true →
        (status % 65536 ≠ 0 → ∃ y : State, exec (.nvmeCompletion id status data) s = .next (y.finish (qp, c) 0x0702 0 (status % 65536)) ∧
          (y.entry i).st = 0 ∧ y.storage.ops = rest) ∧
        (∃ y : State, exec (.nvmeTimeout id) s = .next (y.finish (qp, c) 0x0702 0 0xFFFF) ∧ (y.entry i).st = 0 ∧ y.storage.ops = rest)) ∧
      (∀ qp c i img, o.purpose = .register qp c i → status % 65536 = 0 →
        let b := slice data 0 o.len
        let p := (s.entry i).customer
        (s.entry i).st = 1 → pkgCustomer b = p → s.checkPackage b = (0, img) →
        ∃ y : State, exec (.nvmeCompletion id status data) s = .next (y.finish (qp, c) 0 (s.handleOf i)) ∧ (y.entry i).st = 2 ∧
          (y.entry i).customer = p ∧ (y.entry i).model = pkgModel b ∧ (y.entry i).gen = pkgGen b ∧ (y.entry i).imageLen = pkgImageLen b ∧
          y.storage.ops = rest) ∧
      (∀ qp c i, o.purpose = .register qp c i → status % 65536 = 0 →
        let b := slice data 0 o.len
        (s.entry i).st = 1 →
        (pkgCustomer b ≠ (s.entry i).customer → ∃ y : State, exec (.nvmeCompletion id status data) s = .next (y.finish (qp, c) 0x0605) ∧ (y.entry i).st = 0) ∧
        (pkgCustomer b = (s.entry i).customer → (s.checkPackage b).1 ≠ 0 →
          ∃ y : State, exec (.nvmeCompletion id status data) s = .next (y.finish (qp, c) (s.checkPackage b).1) ∧ (y.entry i).st = 0)) ∧
      (∀ g i r, o.purpose = .load g i → s.resident g i = some r → r.fetching = true → (s.stage g).step = none →
        (status % 65536 = 0 → r.stored = true → ∃ t r', exec (.nvmeCompletion id status data) s = .next t ∧ t.resident g i = some r' ∧
          r'.fetching = false) ∧
        (o.second = true → ∃ t r', exec (.nvmeTimeout id) s = .next t ∧ t.resident g i = some r' ∧ r'.st = .scrubbing ∧ r'.pins = [])) ∧
      (∀ qp c i, o.purpose = .checkpoint qp c i →
        (status % 65536 = 0 → ∃ y : State, exec (.nvmeCompletion id status data) s = .next (y.finish (qp, c) 0 o.len) ∧
          y.costumes.ckLoc = s.costumes.ckLoc ∧ y.storage.ops = rest) ∧
        (o.second = true → ∃ y : State, exec (.nvmeTimeout id) s = .next (y.finish (qp, c) 0x0702 0 0xFFFF) ∧
          Table.find y.costumes.ckLoc i = none ∧ y.storage.ops = rest))) ∧
    (∀ c, c < s.storage.controllers.length → ∃ t, exec (.nvmeControllerFatal c) s = .next t ∧ .nvmeReset c ∈ t.wire ∧ s.sameBytes t ∧
      ∀ o, o ∈ t.storage.ops → o.controller = c → o.second = false) ∧
    (∀ c, s.storage.controllers.length ≤ c → exec (.nvmeControllerFatal c) s = .next s)

/-- Tier 2. A sample sets the readings of the sensors that the part has, with their factory offsets; a telemetry
update takes the mirror from them and from the meters; the throttle goes up by a step for a quadrant at 90 degrees or
more and for input power beyond the peak, and down by one below 88 degrees and below 95 percent; a trip is latched at
110 degrees or more and stops the converters. The management port answers each request with one message from 150 ms
after SUPPLY_VALID until it falls (R413, R518, R519, R525, R526, R528). The numbers of threshold states and what the
base specifications give are the model's (log 36, log 5). THERMAL_SAMPLE, TELEMETRY_UPDATE, THROTTLE_EVALUATION,
THERMAL_TRIP, MCTP_CONTROL, PLDM_SENSOR_READ and PLDM_FRU_READ answer a next state in each of these cases. -/
def Obligations.ThermalAndManagement : Prop :=
  ∀ (s : State),
    let h := s.thermal
    (s.power.supplyValid = true →
      (∀ l : List Int, ∃ t, exec (.thermalSample l) s = .next t ∧ s.sameBytes t ∧
        (∀ n, n < l.length → n < 512 → s.dev.part.hasSensor n = true →
          Table.get 0 t.thermal.sensors n = nth 0 l n + nth 0 s.dev.sensorOffset n) ∧
        ∀ n, l.length ≤ n ∨ s.dev.part.hasSensor n = false → Table.get 0 t.thermal.sensors n = Table.get 0 h.sensors n) ∧
      (∀ mv mw pw, ∃ t, exec (.telemetryUpdate mv mw pw) s = .next t ∧ t.thermal.sampleTime = s.now ∧ t.thermal.inputMv = mv % 2 ^ 32 ∧
        t.thermal.inputMw = mw % 2 ^ 32 ∧ t.thermal.mirrorT = h.t ∧
        (∀ q, q < 4 → nth 0 t.thermal.powerW q = nth 0 pw q % 65536 ∧ nth 0 t.thermal.mirrorTj q = unsigned (s.hottest q) 16) ∧
        t.thermal.sensors = h.sensors ∧ t.thermal.th = h.th) ∧
      (∀ p, ∃ t, exec (.throttleEvaluation p) s = .next t ∧ s.sameBytes t ∧
        let peak := s.dev.part.peakMw
        let pw := if peak < p then min 15 (h.pw + 1) else if 100 * p < 95 * peak then h.pw - 1 else h.pw
        t.thermal.pw = pw ∧ ∀ q, q < 4 →
          let x := nth 0 h.th q
          let x' := if 1440 ≤ s.hottest q then min 15 (x + 1) else if s.hottest q < 1408 then x - 1 else x
          nth 0 t.thermal.th q = x' ∧ nth 0 t.thermal.t q = max x' pw) ∧
      (∀ n, s.dev.part.hasSensor n = true → 1760 ≤ Table.get 0 h.sensors n → s.power.tripLatched = false → ∃ t, exec (.thermalTrip n) s = .next t ∧
        t.power.tripLatched = true ∧ t.power.converters = false ∧ t.power.phase = s.power.phase ∧ s.sameBytes t) ∧
      (∀ n, Table.get 0 h.sensors n < 1760 → exec (.thermalTrip n) s = .next s) ∧
      (s.power.phase ≠ .off → 150000000 ≤ s.now →
        (∀ m : Bytes, ∃ t r, exec (.mctpControl m) s = .next t ∧ t.wire = .mgtReply r :: s.wire ∧
          (3 ≤ m.length → bit (fieldAt m 1 1) 7 = true → fieldAt m 2 1 = 2 → fieldAt r 4 1 = s.mctpEid % 256) ∧
          t.mctpEid = (if 5 ≤ m.length ∧ bit (fieldAt m 1 1) 7 = true ∧ fieldAt m 2 1 = 1 ∧ fieldAt m 3 1 % 4 < 2 ∧ 8 ≤ fieldAt m 4 1 ∧
            fieldAt m 4 1 < 255 then fieldAt m 4 1 else s.mctpEid)) ∧
        (let reads : Nat → Int → Prop := fun n v => ∃ x, exec (.pldmSensorRead n) s = .next (s.send (.pldmReading v x))
         reads 1 h.inputMv ∧ reads 2 (h.inputMw / 1000 : Nat) ∧ (∀ q, q < 4 → reads (0x10 + q) (nth 0 h.powerW q : Nat) ∧
           reads (0x20 + q) (signed (nth 0 h.mirrorTj q) 16) ∧ reads (0x30 + q) (nth 0 h.mirrorT q : Nat)) ∧
         ∀ n, n < 512 → s.dev.part.hasSensor n = true → reads (0x1000 + n) (s.reading n)) ∧
        exec .pldmFruRead s = .next (s.send (.mgtReply s.fru))) ∧
      (s.now < 150000000 → (∀ m, exec (.mctpControl m) s = .next s) ∧ (∀ n, exec (.pldmSensorRead n) s = .next s) ∧ exec .pldmFruRead s = .next s)) ∧
    (s.power.supplyValid = false → ∀ i, i ∈ ([.thermalSample [], .telemetryUpdate 0 0 [], .throttleEvaluation 0, .thermalTrip 0, .mctpControl [],
      .pldmSensorRead 0, .pldmFruRead] : List Instr) → exec i s = .next s)

/-- Tier 3. The memory of the package address space keeps its canonical form in every step, from every state that has
it: addresses rise strictly, and no listed byte equals what an unlisted address reads as. -/
def Obligations.MemoryStaysCanonical : Prop :=
  ∀ s t : State, Memory.wf s.mem → step s = .next t → Memory.wf t.mem
end

