-- ==== Sys2Proof/Laws/Host.lean ====
section
/-! SUPPORT. Host.lean: what the taking of a host command does, said once. -/

namespace Sys2Proof.Machine

/-- A host command that starts runs its effect on the state in which it starts. -/
theorem State.command_starts {s t : State} {c : HostCmd} {row : Nat} {k : Call} (start : Start)
    (h : s.starts c row = some (k, t)) : s.command c row start = .next (start k t) := by
  unfold State.starts at h
  unfold State.command
  cases he : s.heldFor c.qp c.entry with
  | some x =>
    obtain ⟨hh, cmd⟩ := x
    rw [he] at h
    dsimp only at h ⊢
    split at h
    · next hc =>
      injection h with h; injection h with h1 h2; subst h1; subst h2
      simp only [Bool.and_eq_true, Bool.not_eq_true', decide_eq_true_eq] at hc
      obtain ⟨⟨⟨h1, h2⟩, h3⟩, h4⟩ := hc
      have hb : (fieldAt c.entry 0 1 = row && s.hostReach && (!hh.fence || (s.qp c.qp).first hh.id)) = true := by
        simp [h1, h2, h4]
      simp only [guarded, hb, if_true, h3, Bool.false_eq_true, if_false]
    · cases h
  | none =>
    rw [he] at h
    dsimp only at h ⊢
    split at h
    · next hc =>
      injection h with h; injection h with h1 h2; subst h1; subst h2
      simp only [Bool.and_eq_true, decide_eq_true_eq, Bool.not_eq_true', Bool.or_eq_true] at hc
      obtain ⟨⟨⟨⟨⟨⟨h1, h2⟩, h3⟩, h4⟩, h5⟩, h6⟩, h7⟩ := hc
      simp only [guarded, h1, h2, decide_true, Bool.true_or, Bool.and_self, if_true]
      congr 1
      unfold State.take
      dsimp only
      rw [if_neg (by simpa using h3)]
      rw [if_neg (by rcases h4 with h | h <;> simp [State.setQp, h])]
      rw [h5]
      simp only [ne_eq, not_true_eq_false, if_false]
      unfold State.taken State.consumed at h6 h7
      dsimp only at h6 h7
      rw [if_neg (by simpa using h6)]
      unfold State.closing at h7
      dsimp only at h7
      rw [if_neg (by simpa using h7)]
      rfl
    · cases h

/-- A guarded meaning acts where its condition holds, and otherwise leaves the state. -/
theorem guarded_true {c : Bool} (s t : State) (h : c = true) : guarded c s t = .next t := by simp [guarded, h]
theorem guarded_false {c : Bool} (s t : State) (h : c = false) : guarded c s t = .next s := by simp [guarded, h]

end Sys2Proof.Machine
end

