-- ==== Sys2Proof/Laws/Table.lean ====
section
/-! SUPPORT. Laws/Table.lean: what the operations of a table do: reading after writing, and that they keep keys
rising. -/

namespace Sys2Proof

section
variable {α : Type}

theorem Table.find_eq_none_of_not_key (t : Tab α) (k : Nat) (h : ∀ p ∈ t, p.1 ≠ k) : Table.find t k = none := by
  induction t with
  | nil => rfl
  | cons p r ih =>
    have hp : ¬ k = p.1 := fun e => h p (by simp) e.symm
    simp only [Table.find, hp, if_false]
    exact ih fun q hq => h q (by simp [hq])

theorem Table.get_eq (d : α) (t : Tab α) (k : Nat) : Table.get d t k = (Table.find t k).getD d := by
  induction t with
  | nil => rfl
  | cons p r ih => simp only [Table.get, Table.find]; split <;> simp [ih]

theorem Table.find_erase_self (t : Tab α) (k : Nat) : Table.find (Table.erase t k) k = none := by
  apply Table.find_eq_none_of_not_key
  intro p hp
  simpa using (List.mem_filter.mp hp).2

theorem Table.find_erase_ne (t : Tab α) {k k' : Nat} (h : k' ≠ k) :
    Table.find (Table.erase t k) k' = Table.find t k' := by
  induction t with
  | nil => rfl
  | cons p r ih =>
    simp only [Table.erase, ne_eq, decide_not] at ih ⊢
    by_cases hp : p.1 = k
    · have h2 : ¬ k' = p.1 := fun e => h (e.trans hp)
      simp [hp, Table.find, ih, h]
    · simp [hp, Table.find, ih]

theorem Table.find_insert_self (t : Tab α) (k : Nat) (v : α) (h : Table.find t k = none) :
    Table.find (Table.insert t k v) k = some v := by
  induction t with
  | nil => simp [Table.insert, Table.find]
  | cons p r ih =>
    simp only [Table.find] at h
    split at h
    · cases h
    · rename_i hp
      simp only [Table.insert]
      split <;> simp [Table.find, hp, ih h]

theorem Table.find_insert_ne (t : Tab α) {k k' : Nat} (v : α) (h : k' ≠ k) :
    Table.find (Table.insert t k v) k' = Table.find t k' := by
  induction t with
  | nil => simp [Table.insert, Table.find, h]
  | cons p r ih =>
    simp only [Table.insert]
    split <;> simp [Table.find, h, ih]

@[simp] theorem Table.find_put_self (t : Tab α) (k : Nat) (v : α) : Table.find (Table.put t k v) k = some v :=
  Table.find_insert_self _ _ _ (Table.find_erase_self t k)

theorem Table.find_put_ne (t : Tab α) {k k' : Nat} (v : α) (h : k' ≠ k) :
    Table.find (Table.put t k v) k' = Table.find t k' := by
  rw [Table.put, Table.find_insert_ne _ _ h, Table.find_erase_ne _ h]

@[simp] theorem Table.get_set_self [DecidableEq α] (d : α) (t : Tab α) (k : Nat) (v : α) :
    Table.get d (Table.set d t k v) k = v := by
  unfold Table.set
  split
  · next h => rw [Table.get_eq, Table.find_erase_self, h]; rfl
  · rw [Table.get_eq, Table.find_put_self]; rfl

theorem Table.get_set_ne [DecidableEq α] (d : α) (t : Tab α) {k k' : Nat} (v : α) (h : k' ≠ k) :
    Table.get d (Table.set d t k v) k' = Table.get d t k' := by
  unfold Table.set
  split
  · rw [Table.get_eq, Table.find_erase_ne _ h, Table.get_eq]
  · rw [Table.get_eq, Table.find_put_ne _ _ h, Table.get_eq]

theorem Table.get_clear_outside (d : α) (t : Tab α) (lo len : Nat) {k : Nat} (h : k < lo ∨ lo + len ≤ k) :
    Table.get d (Table.clear t lo len) k = Table.get d t k := by
  induction t with
  | nil => rfl
  | cons p r ih =>
    unfold Table.clear at ih ⊢
    by_cases hp : p.1 < lo ∨ lo + len ≤ p.1
    · simp [hp, Table.get, ih]
    · have : ¬ k = p.1 := fun e => hp (e ▸ h)
      simp [hp, Table.get, ih, this]

theorem Table.erase_erase (t : Tab α) (k : Nat) : Table.erase (Table.erase t k) k = Table.erase t k := by
  simp [Table.erase, List.filter_filter]

theorem Table.erase_insert (t : Tab α) (k : Nat) (v : α) : Table.erase (Table.insert t k v) k = Table.erase t k := by
  induction t with
  | nil => simp [Table.erase, Table.insert]
  | cons p r ih =>
    simp only [Table.insert]
    split
    · simp [Table.erase]
    · simp only [Table.erase, ne_eq, decide_not, List.filter_cons] at ih ⊢
      split <;> simp [ih]

/-- The last value set at a key stands alone. -/
theorem Table.set_set [DecidableEq α] (d : α) (t : Tab α) (k : Nat) (v w : α) :
    Table.set d (Table.set d t k v) k w = Table.set d t k w := by
  have h : Table.erase (Table.set d t k v) k = Table.erase t k := by
    unfold Table.set
    split
    · exact Table.erase_erase t k
    · rw [Table.put, Table.erase_insert, Table.erase_erase]
  simp only [Table.set, Table.put] at h ⊢
  rw [h]

/-- A change that keeps the value of unlisted keys reaches the value at every key. -/
@[simp] theorem Table.get_mapped [DecidableEq α] (d : α) (t : Tab α) (f : α → α) (h : f d = d) (k : Nat) :
    Table.get d (Table.mapped d t f) k = f (Table.get d t k) := by
  induction t with
  | nil => simp [Table.mapped, Table.get, h]
  | cons p r ih =>
    have hr : Table.mapped d (p :: r) f = Table.set d (Table.mapped d r f) p.1 (f p.2) := rfl
    rw [hr]
    by_cases hk : k = p.1
    · subst hk
      simp [Table.get]
    · rw [Table.get_set_ne d _ _ hk, ih]
      simp [Table.get, hk]

/-! ### Rising keys -/

/-- Keys rise strictly, in the form that list lemmas use. -/
theorem Table.rising_iff (t : Tab α) : Table.rising t = true ↔ (t.map (·.1)).Pairwise (· < ·) := by
  induction t with
  | nil => simp [Table.rising]
  | cons p r ih =>
    cases r with
    | nil => simp [Table.rising]
    | cons q r =>
      simp only [Table.rising, Bool.and_eq_true, decide_eq_true_eq, ih]
      constructor
      · rintro ⟨h1, h2⟩
        refine List.pairwise_cons.mpr ⟨?_, h2⟩
        intro x hx
        simp only [List.map_cons, List.mem_cons] at hx
        rcases hx with rfl | hx
        · exact h1
        · exact Nat.lt_trans h1 ((List.pairwise_cons.mp h2).1 x (by simpa using hx))
      · intro h
        exact ⟨(List.pairwise_cons.mp h).1 _ (by simp), (List.pairwise_cons.mp h).2⟩

theorem Table.rising_filter (t : Tab α) (p : Nat × α → Bool) (h : Table.rising t = true) :
    Table.rising (t.filter p) = true := by
  rw [Table.rising_iff] at h ⊢
  exact h.sublist (List.Sublist.map _ List.filter_sublist)

theorem Table.rising_erase (t : Tab α) (k : Nat) (h : Table.rising t = true) : Table.rising (Table.erase t k) = true :=
  Table.rising_filter t _ h

theorem Table.rising_clear (t : Tab α) (lo len : Nat) (h : Table.rising t = true) :
    Table.rising (Table.clear t lo len) = true :=
  Table.rising_filter t _ h

theorem Table.key_insert (t : Tab α) (k : Nat) (v : α) (x : Nat) :
    x ∈ (Table.insert t k v).map (·.1) ↔ x = k ∨ x ∈ t.map (·.1) := by
  induction t with
  | nil => simp [Table.insert]
  | cons p r ih =>
    simp only [Table.insert]
    split
    · simp
    · simp only [List.map_cons, List.mem_cons, ih, or_left_comm]

theorem Table.rising_insert (t : Tab α) (k : Nat) (v : α) (h : Table.rising t = true) (hk : ∀ p ∈ t, p.1 ≠ k) :
    Table.rising (Table.insert t k v) = true := by
  rw [Table.rising_iff] at h ⊢
  induction t with
  | nil => simp [Table.insert]
  | cons p r ih =>
    have hr := List.pairwise_cons.mp h
    simp only [Table.insert]
    split
    · next hlt =>
      refine List.pairwise_cons.mpr ⟨?_, h⟩
      intro x hx
      simp only [List.map_cons, List.mem_cons] at hx
      rcases hx with rfl | hx
      · exact hlt
      · exact Nat.lt_trans hlt (hr.1 x hx)
    · next hlt =>
      have hne := hk p (by simp)
      refine List.pairwise_cons.mpr ⟨?_, ih hr.2 fun q hq => hk q (by simp [hq])⟩
      intro x hx
      rcases (Table.key_insert r k v x).mp hx with rfl | hx
      · exact Nat.lt_of_le_of_ne (Nat.le_of_not_lt hlt) hne
      · exact hr.1 x hx

theorem Table.rising_put (t : Tab α) (k : Nat) (v : α) (h : Table.rising t = true) :
    Table.rising (Table.put t k v) = true :=
  Table.rising_insert _ _ _ (Table.rising_erase t k h) fun p hp => by simpa using (List.mem_filter.mp hp).2

theorem Table.rising_set [DecidableEq α] (d : α) (t : Tab α) (k : Nat) (v : α) (h : Table.rising t = true) :
    Table.rising (Table.set d t k v) = true := by
  unfold Table.set
  split
  · exact Table.rising_erase t k h
  · exact Table.rising_put t k v h

theorem Table.mem_insert (t : Tab α) (k : Nat) (v : α) (p : Nat × α) :
    p ∈ Table.insert t k v ↔ p = (k, v) ∨ p ∈ t := by
  induction t with
  | nil => simp [Table.insert]
  | cons q r ih =>
    simp only [Table.insert]
    split
    · simp
    · simp only [List.mem_cons, ih]
      exact or_left_comm

/-- A value other than the default stands at every listed key, after a `set` as before it. -/
theorem Table.ne_default_set [DecidableEq α] (d : α) (t : Tab α) (k : Nat) (v : α) (h : ∀ p ∈ t, p.2 ≠ d) :
    ∀ p ∈ Table.set d t k v, p.2 ≠ d := by
  intro p hp
  unfold Table.set at hp
  split at hp
  · exact h p (List.mem_filter.mp hp).1
  · next hv =>
    rcases (Table.mem_insert _ _ _ _).mp hp with rfl | hp
    · exact hv
    · exact h p (List.mem_filter.mp hp).1

end

end Sys2Proof
end

