-- ==== Sys2Proof/Laws/State.lean ====
section
/-! SUPPORT. Laws/State.lean: one lemma for each field of the state under each of its basic updates, and what a part
reads after it has been set. -/

namespace Sys2Proof.Machine

variable (s : State)

/-! ### setQp -/

@[simp] theorem State.setQp_dev (n : Nat) (q : Qp) : (s.setQp n q).dev = s.dev := rfl
@[simp] theorem State.setQp_power (n : Nat) (q : Qp) : (s.setQp n q).power = s.power := rfl
@[simp] theorem State.setQp_thermal (n : Nat) (q : Qp) : (s.setQp n q).thermal = s.thermal := rfl
@[simp] theorem State.setQp_store (n : Nat) (q : Qp) : (s.setQp n q).store = s.store := rfl
@[simp] theorem State.setQp_fw (n : Nat) (q : Qp) : (s.setQp n q).fw = s.fw := rfl
@[simp] theorem State.setQp_mctpEid (n : Nat) (q : Qp) : (s.setQp n q).mctpEid = s.mctpEid := rfl
@[simp] theorem State.setQp_records (n : Nat) (q : Qp) : (s.setQp n q).records = s.records := rfl
@[simp] theorem State.setQp_mem (n : Nat) (q : Qp) : (s.setQp n q).mem = s.mem := rfl
@[simp] theorem State.setQp_stg (n : Nat) (q : Qp) : (s.setQp n q).stg = s.stg := rfl
@[simp] theorem State.setQp_gkeys (n : Nat) (q : Qp) : (s.setQp n q).gkeys = s.gkeys := rfl
@[simp] theorem State.setQp_keyGen (n : Nat) (q : Qp) : (s.setQp n q).keyGen = s.keyGen := rfl
@[simp] theorem State.setQp_dies (n : Nat) (q : Qp) : (s.setQp n q).dies = s.dies := rfl
@[simp] theorem State.setQp_clusters (n : Nat) (q : Qp) : (s.setQp n q).clusters = s.clusters := rfl
@[simp] theorem State.setQp_signals (n : Nat) (q : Qp) : (s.setQp n q).signals = s.signals := rfl
@[simp] theorem State.setQp_acks (n : Nat) (q : Qp) : (s.setQp n q).acks = s.acks := rfl
@[simp] theorem State.setQp_stages (n : Nat) (q : Qp) : (s.setQp n q).stages = s.stages := rfl
@[simp] theorem State.setQp_modRuns (n : Nat) (q : Qp) : (s.setQp n q).modRuns = s.modRuns := rfl
@[simp] theorem State.setQp_rig (n : Nat) (q : Qp) : (s.setQp n q).rig = s.rig := rfl
@[simp] theorem State.setQp_requests (n : Nat) (q : Qp) : (s.setQp n q).requests = s.requests := rfl
@[simp] theorem State.setQp_nextReq (n : Nat) (q : Qp) : (s.setQp n q).nextReq = s.nextReq := rfl
@[simp] theorem State.setQp_costumes (n : Nat) (q : Qp) : (s.setQp n q).costumes = s.costumes := rfl
@[simp] theorem State.setQp_jobs (n : Nat) (q : Qp) : (s.setQp n q).jobs = s.jobs := rfl
@[simp] theorem State.setQp_ports (n : Nat) (q : Qp) : (s.setQp n q).ports = s.ports := rfl
@[simp] theorem State.setQp_storage (n : Nat) (q : Qp) : (s.setQp n q).storage = s.storage := rfl
@[simp] theorem State.setQp_poison (n : Nat) (q : Qp) : (s.setQp n q).poison = s.poison := rfl
@[simp] theorem State.setQp_aside (n : Nat) (q : Qp) : (s.setQp n q).aside = s.aside := rfl
@[simp] theorem State.setQp_draws (n : Nat) (q : Qp) : (s.setQp n q).draws = s.draws := rfl
@[simp] theorem State.setQp_wire (n : Nat) (q : Qp) : (s.setQp n q).wire = s.wire := rfl
@[simp] theorem State.setQp_pending (n : Nat) (q : Qp) : (s.setQp n q).pending = s.pending := rfl
@[simp] theorem State.setQp_host_ready (n : Nat) (q : Qp) : (s.setQp n q).host.ready = s.host.ready := rfl
@[simp] theorem State.setQp_host_lifecycle (n : Nat) (q : Qp) : (s.setQp n q).host.lifecycle = s.host.lifecycle := rfl
@[simp] theorem State.setQp_host_lifeTarget (n : Nat) (q : Qp) : (s.setQp n q).host.lifeTarget = s.host.lifeTarget := rfl
@[simp] theorem State.setQp_host_evtVector (n : Nat) (q : Qp) : (s.setQp n q).host.evtVector = s.host.evtVector := rfl
@[simp] theorem State.setQp_host_evtIen (n : Nat) (q : Qp) : (s.setQp n q).host.evtIen = s.host.evtIen := rfl
@[simp] theorem State.setQp_host_evt (n : Nat) (q : Qp) : (s.setQp n q).host.evt = s.host.evt := rfl
@[simp] theorem State.setQp_host_evtMsg (n : Nat) (q : Qp) : (s.setQp n q).host.evtMsg = s.host.evtMsg := rfl
@[simp] theorem State.setQp_host_linkWidth (n : Nat) (q : Qp) : (s.setQp n q).host.linkWidth = s.host.linkWidth := rfl
@[simp] theorem State.setQp_host_linkRate (n : Nat) (q : Qp) : (s.setQp n q).host.linkRate = s.host.linkRate := rfl
@[simp] theorem State.setQp_host_unrecovered (n : Nat) (q : Qp) : (s.setQp n q).host.unrecovered = s.host.unrecovered := rfl
@[simp] theorem State.setQp_host_msix (n : Nat) (q : Qp) : (s.setQp n q).host.msix = s.host.msix := rfl
@[simp] theorem State.setQp_host_pba (n : Nat) (q : Qp) : (s.setQp n q).host.pba = s.host.pba := rfl
@[simp] theorem State.setQp_host_pmState (n : Nat) (q : Qp) : (s.setQp n q).host.pmState = s.host.pmState := rfl
@[simp] theorem State.setQp_host_devControl (n : Nat) (q : Qp) : (s.setQp n q).host.devControl = s.host.devControl := rfl
@[simp] theorem State.setQp_host_msixControl (n : Nat) (q : Qp) : (s.setQp n q).host.msixControl = s.host.msixControl := rfl
@[simp] theorem State.setQp_host_cfgCommand (n : Nat) (q : Qp) : (s.setQp n q).host.cfgCommand = s.host.cfgCommand := rfl
@[simp] theorem State.setQp_host_bar0 (n : Nat) (q : Qp) : (s.setQp n q).host.bar0 = s.host.bar0 := rfl
@[simp] theorem State.setQp_host_aer (n : Nat) (q : Qp) : (s.setQp n q).host.aer = s.host.aer := rfl
@[simp] theorem State.setQp_host_nextId (n : Nat) (q : Qp) : (s.setQp n q).host.nextId = s.host.nextId := rfl
@[simp] theorem State.setQp_host_issuers (n : Nat) (q : Qp) : (s.setQp n q).host.issuers = s.host.issuers := rfl
@[simp] theorem State.setQp_host_held (n : Nat) (q : Qp) : (s.setQp n q).host.held = s.host.held := rfl
@[simp] theorem State.setQp_die_of (n : Nat) (q : Qp) (k : Nat) : (s.setQp n q).die k = s.die k := rfl
@[simp] theorem State.setQp_cluster_of (n : Nat) (q : Qp) (k : Nat) : (s.setQp n q).cluster k = s.cluster k := rfl
@[simp] theorem State.setQp_stage_of (n : Nat) (q : Qp) (k : Nat) : (s.setQp n q).stage k = s.stage k := rfl
@[simp] theorem State.setQp_port_of (n : Nat) (q : Qp) (k : Nat) : (s.setQp n q).port k = s.port k := rfl
@[simp] theorem State.setQp_entry_of (n : Nat) (q : Qp) (k : Nat) : (s.setQp n q).entry k = s.entry k := rfl
@[simp] theorem State.setQp_job_of (n : Nat) (q : Qp) (k : Nat) : (s.setQp n q).job k = s.job k := rfl
@[simp] theorem State.setQp_gkey_of (n : Nat) (q : Qp) (k : Nat) : (s.setQp n q).gkey k = s.gkey k := rfl
@[simp] theorem State.setQp_readByte_of (n : Nat) (q : Qp) (k : Nat) : (s.setQp n q).readByte k = s.readByte k := rfl
@[simp] theorem State.setQp_self (n : Nat) (q : Qp) : (s.setQp n q).qp n = q := Table.get_set_self _ _ _ _
theorem State.setQp_other (n : Nat) (q : Qp) {k : Nat} (h : k ≠ n) : (s.setQp n q).qp k = s.qp k := Table.get_set_ne _ _ _ h

/-! ### setDie -/

@[simp] theorem State.setDie_dev (n : Nat) (d : Die) : (s.setDie n d).dev = s.dev := rfl
@[simp] theorem State.setDie_power (n : Nat) (d : Die) : (s.setDie n d).power = s.power := rfl
@[simp] theorem State.setDie_thermal (n : Nat) (d : Die) : (s.setDie n d).thermal = s.thermal := rfl
@[simp] theorem State.setDie_host (n : Nat) (d : Die) : (s.setDie n d).host = s.host := rfl
@[simp] theorem State.setDie_store (n : Nat) (d : Die) : (s.setDie n d).store = s.store := rfl
@[simp] theorem State.setDie_fw (n : Nat) (d : Die) : (s.setDie n d).fw = s.fw := rfl
@[simp] theorem State.setDie_mctpEid (n : Nat) (d : Die) : (s.setDie n d).mctpEid = s.mctpEid := rfl
@[simp] theorem State.setDie_records (n : Nat) (d : Die) : (s.setDie n d).records = s.records := rfl
@[simp] theorem State.setDie_mem (n : Nat) (d : Die) : (s.setDie n d).mem = s.mem := rfl
@[simp] theorem State.setDie_stg (n : Nat) (d : Die) : (s.setDie n d).stg = s.stg := rfl
@[simp] theorem State.setDie_gkeys (n : Nat) (d : Die) : (s.setDie n d).gkeys = s.gkeys := rfl
@[simp] theorem State.setDie_keyGen (n : Nat) (d : Die) : (s.setDie n d).keyGen = s.keyGen := rfl
@[simp] theorem State.setDie_clusters (n : Nat) (d : Die) : (s.setDie n d).clusters = s.clusters := rfl
@[simp] theorem State.setDie_signals (n : Nat) (d : Die) : (s.setDie n d).signals = s.signals := rfl
@[simp] theorem State.setDie_acks (n : Nat) (d : Die) : (s.setDie n d).acks = s.acks := rfl
@[simp] theorem State.setDie_stages (n : Nat) (d : Die) : (s.setDie n d).stages = s.stages := rfl
@[simp] theorem State.setDie_modRuns (n : Nat) (d : Die) : (s.setDie n d).modRuns = s.modRuns := rfl
@[simp] theorem State.setDie_rig (n : Nat) (d : Die) : (s.setDie n d).rig = s.rig := rfl
@[simp] theorem State.setDie_requests (n : Nat) (d : Die) : (s.setDie n d).requests = s.requests := rfl
@[simp] theorem State.setDie_nextReq (n : Nat) (d : Die) : (s.setDie n d).nextReq = s.nextReq := rfl
@[simp] theorem State.setDie_costumes (n : Nat) (d : Die) : (s.setDie n d).costumes = s.costumes := rfl
@[simp] theorem State.setDie_jobs (n : Nat) (d : Die) : (s.setDie n d).jobs = s.jobs := rfl
@[simp] theorem State.setDie_ports (n : Nat) (d : Die) : (s.setDie n d).ports = s.ports := rfl
@[simp] theorem State.setDie_storage (n : Nat) (d : Die) : (s.setDie n d).storage = s.storage := rfl
@[simp] theorem State.setDie_poison (n : Nat) (d : Die) : (s.setDie n d).poison = s.poison := rfl
@[simp] theorem State.setDie_aside (n : Nat) (d : Die) : (s.setDie n d).aside = s.aside := rfl
@[simp] theorem State.setDie_draws (n : Nat) (d : Die) : (s.setDie n d).draws = s.draws := rfl
@[simp] theorem State.setDie_wire (n : Nat) (d : Die) : (s.setDie n d).wire = s.wire := rfl
@[simp] theorem State.setDie_pending (n : Nat) (d : Die) : (s.setDie n d).pending = s.pending := rfl
@[simp] theorem State.setDie_qp_of (n : Nat) (d : Die) (k : Nat) : (s.setDie n d).qp k = s.qp k := rfl
@[simp] theorem State.setDie_cluster_of (n : Nat) (d : Die) (k : Nat) : (s.setDie n d).cluster k = s.cluster k := rfl
@[simp] theorem State.setDie_stage_of (n : Nat) (d : Die) (k : Nat) : (s.setDie n d).stage k = s.stage k := rfl
@[simp] theorem State.setDie_port_of (n : Nat) (d : Die) (k : Nat) : (s.setDie n d).port k = s.port k := rfl
@[simp] theorem State.setDie_entry_of (n : Nat) (d : Die) (k : Nat) : (s.setDie n d).entry k = s.entry k := rfl
@[simp] theorem State.setDie_job_of (n : Nat) (d : Die) (k : Nat) : (s.setDie n d).job k = s.job k := rfl
@[simp] theorem State.setDie_gkey_of (n : Nat) (d : Die) (k : Nat) : (s.setDie n d).gkey k = s.gkey k := rfl
@[simp] theorem State.setDie_readByte_of (n : Nat) (d : Die) (k : Nat) : (s.setDie n d).readByte k = s.readByte k := rfl
@[simp] theorem State.setDie_self (n : Nat) (d : Die) : (s.setDie n d).die n = d := Table.get_set_self _ _ _ _
theorem State.setDie_other (n : Nat) (d : Die) {k : Nat} (h : k ≠ n) : (s.setDie n d).die k = s.die k := Table.get_set_ne _ _ _ h

/-! ### setCluster -/

@[simp] theorem State.setCluster_dev (n : Nat) (c : Cluster) : (s.setCluster n c).dev = s.dev := rfl
@[simp] theorem State.setCluster_power (n : Nat) (c : Cluster) : (s.setCluster n c).power = s.power := rfl
@[simp] theorem State.setCluster_thermal (n : Nat) (c : Cluster) : (s.setCluster n c).thermal = s.thermal := rfl
@[simp] theorem State.setCluster_host (n : Nat) (c : Cluster) : (s.setCluster n c).host = s.host := rfl
@[simp] theorem State.setCluster_store (n : Nat) (c : Cluster) : (s.setCluster n c).store = s.store := rfl
@[simp] theorem State.setCluster_fw (n : Nat) (c : Cluster) : (s.setCluster n c).fw = s.fw := rfl
@[simp] theorem State.setCluster_mctpEid (n : Nat) (c : Cluster) : (s.setCluster n c).mctpEid = s.mctpEid := rfl
@[simp] theorem State.setCluster_records (n : Nat) (c : Cluster) : (s.setCluster n c).records = s.records := rfl
@[simp] theorem State.setCluster_mem (n : Nat) (c : Cluster) : (s.setCluster n c).mem = s.mem := rfl
@[simp] theorem State.setCluster_stg (n : Nat) (c : Cluster) : (s.setCluster n c).stg = s.stg := rfl
@[simp] theorem State.setCluster_gkeys (n : Nat) (c : Cluster) : (s.setCluster n c).gkeys = s.gkeys := rfl
@[simp] theorem State.setCluster_keyGen (n : Nat) (c : Cluster) : (s.setCluster n c).keyGen = s.keyGen := rfl
@[simp] theorem State.setCluster_dies (n : Nat) (c : Cluster) : (s.setCluster n c).dies = s.dies := rfl
@[simp] theorem State.setCluster_signals (n : Nat) (c : Cluster) : (s.setCluster n c).signals = s.signals := rfl
@[simp] theorem State.setCluster_acks (n : Nat) (c : Cluster) : (s.setCluster n c).acks = s.acks := rfl
@[simp] theorem State.setCluster_stages (n : Nat) (c : Cluster) : (s.setCluster n c).stages = s.stages := rfl
@[simp] theorem State.setCluster_modRuns (n : Nat) (c : Cluster) : (s.setCluster n c).modRuns = s.modRuns := rfl
@[simp] theorem State.setCluster_rig (n : Nat) (c : Cluster) : (s.setCluster n c).rig = s.rig := rfl
@[simp] theorem State.setCluster_requests (n : Nat) (c : Cluster) : (s.setCluster n c).requests = s.requests := rfl
@[simp] theorem State.setCluster_nextReq (n : Nat) (c : Cluster) : (s.setCluster n c).nextReq = s.nextReq := rfl
@[simp] theorem State.setCluster_costumes (n : Nat) (c : Cluster) : (s.setCluster n c).costumes = s.costumes := rfl
@[simp] theorem State.setCluster_jobs (n : Nat) (c : Cluster) : (s.setCluster n c).jobs = s.jobs := rfl
@[simp] theorem State.setCluster_ports (n : Nat) (c : Cluster) : (s.setCluster n c).ports = s.ports := rfl
@[simp] theorem State.setCluster_storage (n : Nat) (c : Cluster) : (s.setCluster n c).storage = s.storage := rfl
@[simp] theorem State.setCluster_poison (n : Nat) (c : Cluster) : (s.setCluster n c).poison = s.poison := rfl
@[simp] theorem State.setCluster_aside (n : Nat) (c : Cluster) : (s.setCluster n c).aside = s.aside := rfl
@[simp] theorem State.setCluster_draws (n : Nat) (c : Cluster) : (s.setCluster n c).draws = s.draws := rfl
@[simp] theorem State.setCluster_wire (n : Nat) (c : Cluster) : (s.setCluster n c).wire = s.wire := rfl
@[simp] theorem State.setCluster_pending (n : Nat) (c : Cluster) : (s.setCluster n c).pending = s.pending := rfl
@[simp] theorem State.setCluster_qp_of (n : Nat) (c : Cluster) (k : Nat) : (s.setCluster n c).qp k = s.qp k := rfl
@[simp] theorem State.setCluster_die_of (n : Nat) (c : Cluster) (k : Nat) : (s.setCluster n c).die k = s.die k := rfl
@[simp] theorem State.setCluster_stage_of (n : Nat) (c : Cluster) (k : Nat) : (s.setCluster n c).stage k = s.stage k := rfl
@[simp] theorem State.setCluster_port_of (n : Nat) (c : Cluster) (k : Nat) : (s.setCluster n c).port k = s.port k := rfl
@[simp] theorem State.setCluster_entry_of (n : Nat) (c : Cluster) (k : Nat) : (s.setCluster n c).entry k = s.entry k := rfl
@[simp] theorem State.setCluster_job_of (n : Nat) (c : Cluster) (k : Nat) : (s.setCluster n c).job k = s.job k := rfl
@[simp] theorem State.setCluster_gkey_of (n : Nat) (c : Cluster) (k : Nat) : (s.setCluster n c).gkey k = s.gkey k := rfl
@[simp] theorem State.setCluster_readByte_of (n : Nat) (c : Cluster) (k : Nat) : (s.setCluster n c).readByte k = s.readByte k := rfl
@[simp] theorem State.setCluster_self (n : Nat) (c : Cluster) : (s.setCluster n c).cluster n = c := Table.get_set_self _ _ _ _
theorem State.setCluster_other (n : Nat) (c : Cluster) {k : Nat} (h : k ≠ n) : (s.setCluster n c).cluster k = s.cluster k := Table.get_set_ne _ _ _ h

/-! ### setStage -/

@[simp] theorem State.setStage_dev (n : Nat) (g : Stage) : (s.setStage n g).dev = s.dev := rfl
@[simp] theorem State.setStage_power (n : Nat) (g : Stage) : (s.setStage n g).power = s.power := rfl
@[simp] theorem State.setStage_thermal (n : Nat) (g : Stage) : (s.setStage n g).thermal = s.thermal := rfl
@[simp] theorem State.setStage_host (n : Nat) (g : Stage) : (s.setStage n g).host = s.host := rfl
@[simp] theorem State.setStage_store (n : Nat) (g : Stage) : (s.setStage n g).store = s.store := rfl
@[simp] theorem State.setStage_fw (n : Nat) (g : Stage) : (s.setStage n g).fw = s.fw := rfl
@[simp] theorem State.setStage_mctpEid (n : Nat) (g : Stage) : (s.setStage n g).mctpEid = s.mctpEid := rfl
@[simp] theorem State.setStage_records (n : Nat) (g : Stage) : (s.setStage n g).records = s.records := rfl
@[simp] theorem State.setStage_mem (n : Nat) (g : Stage) : (s.setStage n g).mem = s.mem := rfl
@[simp] theorem State.setStage_stg (n : Nat) (g : Stage) : (s.setStage n g).stg = s.stg := rfl
@[simp] theorem State.setStage_gkeys (n : Nat) (g : Stage) : (s.setStage n g).gkeys = s.gkeys := rfl
@[simp] theorem State.setStage_keyGen (n : Nat) (g : Stage) : (s.setStage n g).keyGen = s.keyGen := rfl
@[simp] theorem State.setStage_dies (n : Nat) (g : Stage) : (s.setStage n g).dies = s.dies := rfl
@[simp] theorem State.setStage_clusters (n : Nat) (g : Stage) : (s.setStage n g).clusters = s.clusters := rfl
@[simp] theorem State.setStage_signals (n : Nat) (g : Stage) : (s.setStage n g).signals = s.signals := rfl
@[simp] theorem State.setStage_acks (n : Nat) (g : Stage) : (s.setStage n g).acks = s.acks := rfl
@[simp] theorem State.setStage_modRuns (n : Nat) (g : Stage) : (s.setStage n g).modRuns = s.modRuns := rfl
@[simp] theorem State.setStage_rig (n : Nat) (g : Stage) : (s.setStage n g).rig = s.rig := rfl
@[simp] theorem State.setStage_requests (n : Nat) (g : Stage) : (s.setStage n g).requests = s.requests := rfl
@[simp] theorem State.setStage_nextReq (n : Nat) (g : Stage) : (s.setStage n g).nextReq = s.nextReq := rfl
@[simp] theorem State.setStage_costumes (n : Nat) (g : Stage) : (s.setStage n g).costumes = s.costumes := rfl
@[simp] theorem State.setStage_jobs (n : Nat) (g : Stage) : (s.setStage n g).jobs = s.jobs := rfl
@[simp] theorem State.setStage_ports (n : Nat) (g : Stage) : (s.setStage n g).ports = s.ports := rfl
@[simp] theorem State.setStage_storage (n : Nat) (g : Stage) : (s.setStage n g).storage = s.storage := rfl
@[simp] theorem State.setStage_poison (n : Nat) (g : Stage) : (s.setStage n g).poison = s.poison := rfl
@[simp] theorem State.setStage_aside (n : Nat) (g : Stage) : (s.setStage n g).aside = s.aside := rfl
@[simp] theorem State.setStage_draws (n : Nat) (g : Stage) : (s.setStage n g).draws = s.draws := rfl
@[simp] theorem State.setStage_wire (n : Nat) (g : Stage) : (s.setStage n g).wire = s.wire := rfl
@[simp] theorem State.setStage_pending (n : Nat) (g : Stage) : (s.setStage n g).pending = s.pending := rfl
@[simp] theorem State.setStage_qp_of (n : Nat) (g : Stage) (k : Nat) : (s.setStage n g).qp k = s.qp k := rfl
@[simp] theorem State.setStage_die_of (n : Nat) (g : Stage) (k : Nat) : (s.setStage n g).die k = s.die k := rfl
@[simp] theorem State.setStage_cluster_of (n : Nat) (g : Stage) (k : Nat) : (s.setStage n g).cluster k = s.cluster k := rfl
@[simp] theorem State.setStage_port_of (n : Nat) (g : Stage) (k : Nat) : (s.setStage n g).port k = s.port k := rfl
@[simp] theorem State.setStage_entry_of (n : Nat) (g : Stage) (k : Nat) : (s.setStage n g).entry k = s.entry k := rfl
@[simp] theorem State.setStage_job_of (n : Nat) (g : Stage) (k : Nat) : (s.setStage n g).job k = s.job k := rfl
@[simp] theorem State.setStage_gkey_of (n : Nat) (g : Stage) (k : Nat) : (s.setStage n g).gkey k = s.gkey k := rfl
@[simp] theorem State.setStage_readByte_of (n : Nat) (g : Stage) (k : Nat) : (s.setStage n g).readByte k = s.readByte k := rfl
@[simp] theorem State.setStage_self (n : Nat) (g : Stage) : (s.setStage n g).stage n = g := Table.get_set_self _ _ _ _
theorem State.setStage_other (n : Nat) (g : Stage) {k : Nat} (h : k ≠ n) : (s.setStage n g).stage k = s.stage k := Table.get_set_ne _ _ _ h

/-! ### setPort -/

@[simp] theorem State.setPort_dev (n : Nat) (p : Port) : (s.setPort n p).dev = s.dev := rfl
@[simp] theorem State.setPort_power (n : Nat) (p : Port) : (s.setPort n p).power = s.power := rfl
@[simp] theorem State.setPort_thermal (n : Nat) (p : Port) : (s.setPort n p).thermal = s.thermal := rfl
@[simp] theorem State.setPort_host (n : Nat) (p : Port) : (s.setPort n p).host = s.host := rfl
@[simp] theorem State.setPort_store (n : Nat) (p : Port) : (s.setPort n p).store = s.store := rfl
@[simp] theorem State.setPort_fw (n : Nat) (p : Port) : (s.setPort n p).fw = s.fw := rfl
@[simp] theorem State.setPort_mctpEid (n : Nat) (p : Port) : (s.setPort n p).mctpEid = s.mctpEid := rfl
@[simp] theorem State.setPort_records (n : Nat) (p : Port) : (s.setPort n p).records = s.records := rfl
@[simp] theorem State.setPort_mem (n : Nat) (p : Port) : (s.setPort n p).mem = s.mem := rfl
@[simp] theorem State.setPort_stg (n : Nat) (p : Port) : (s.setPort n p).stg = s.stg := rfl
@[simp] theorem State.setPort_gkeys (n : Nat) (p : Port) : (s.setPort n p).gkeys = s.gkeys := rfl
@[simp] theorem State.setPort_keyGen (n : Nat) (p : Port) : (s.setPort n p).keyGen = s.keyGen := rfl
@[simp] theorem State.setPort_dies (n : Nat) (p : Port) : (s.setPort n p).dies = s.dies := rfl
@[simp] theorem State.setPort_clusters (n : Nat) (p : Port) : (s.setPort n p).clusters = s.clusters := rfl
@[simp] theorem State.setPort_signals (n : Nat) (p : Port) : (s.setPort n p).signals = s.signals := rfl
@[simp] theorem State.setPort_acks (n : Nat) (p : Port) : (s.setPort n p).acks = s.acks := rfl
@[simp] theorem State.setPort_stages (n : Nat) (p : Port) : (s.setPort n p).stages = s.stages := rfl
@[simp] theorem State.setPort_modRuns (n : Nat) (p : Port) : (s.setPort n p).modRuns = s.modRuns := rfl
@[simp] theorem State.setPort_rig (n : Nat) (p : Port) : (s.setPort n p).rig = s.rig := rfl
@[simp] theorem State.setPort_requests (n : Nat) (p : Port) : (s.setPort n p).requests = s.requests := rfl
@[simp] theorem State.setPort_nextReq (n : Nat) (p : Port) : (s.setPort n p).nextReq = s.nextReq := rfl
@[simp] theorem State.setPort_costumes (n : Nat) (p : Port) : (s.setPort n p).costumes = s.costumes := rfl
@[simp] theorem State.setPort_jobs (n : Nat) (p : Port) : (s.setPort n p).jobs = s.jobs := rfl
@[simp] theorem State.setPort_storage (n : Nat) (p : Port) : (s.setPort n p).storage = s.storage := rfl
@[simp] theorem State.setPort_poison (n : Nat) (p : Port) : (s.setPort n p).poison = s.poison := rfl
@[simp] theorem State.setPort_aside (n : Nat) (p : Port) : (s.setPort n p).aside = s.aside := rfl
@[simp] theorem State.setPort_draws (n : Nat) (p : Port) : (s.setPort n p).draws = s.draws := rfl
@[simp] theorem State.setPort_wire (n : Nat) (p : Port) : (s.setPort n p).wire = s.wire := rfl
@[simp] theorem State.setPort_pending (n : Nat) (p : Port) : (s.setPort n p).pending = s.pending := rfl
@[simp] theorem State.setPort_qp_of (n : Nat) (p : Port) (k : Nat) : (s.setPort n p).qp k = s.qp k := rfl
@[simp] theorem State.setPort_die_of (n : Nat) (p : Port) (k : Nat) : (s.setPort n p).die k = s.die k := rfl
@[simp] theorem State.setPort_cluster_of (n : Nat) (p : Port) (k : Nat) : (s.setPort n p).cluster k = s.cluster k := rfl
@[simp] theorem State.setPort_stage_of (n : Nat) (p : Port) (k : Nat) : (s.setPort n p).stage k = s.stage k := rfl
@[simp] theorem State.setPort_entry_of (n : Nat) (p : Port) (k : Nat) : (s.setPort n p).entry k = s.entry k := rfl
@[simp] theorem State.setPort_job_of (n : Nat) (p : Port) (k : Nat) : (s.setPort n p).job k = s.job k := rfl
@[simp] theorem State.setPort_gkey_of (n : Nat) (p : Port) (k : Nat) : (s.setPort n p).gkey k = s.gkey k := rfl
@[simp] theorem State.setPort_readByte_of (n : Nat) (p : Port) (k : Nat) : (s.setPort n p).readByte k = s.readByte k := rfl
@[simp] theorem State.setPort_self (n : Nat) (p : Port) : (s.setPort n p).port n = p := Table.get_set_self _ _ _ _
theorem State.setPort_other (n : Nat) (p : Port) {k : Nat} (h : k ≠ n) : (s.setPort n p).port k = s.port k := Table.get_set_ne _ _ _ h

/-! ### setEntry -/

@[simp] theorem State.setEntry_dev (n : Nat) (e : DirEntry) : (s.setEntry n e).dev = s.dev := rfl
@[simp] theorem State.setEntry_power (n : Nat) (e : DirEntry) : (s.setEntry n e).power = s.power := rfl
@[simp] theorem State.setEntry_thermal (n : Nat) (e : DirEntry) : (s.setEntry n e).thermal = s.thermal := rfl
@[simp] theorem State.setEntry_host (n : Nat) (e : DirEntry) : (s.setEntry n e).host = s.host := rfl
@[simp] theorem State.setEntry_store (n : Nat) (e : DirEntry) : (s.setEntry n e).store = s.store := rfl
@[simp] theorem State.setEntry_fw (n : Nat) (e : DirEntry) : (s.setEntry n e).fw = s.fw := rfl
@[simp] theorem State.setEntry_mctpEid (n : Nat) (e : DirEntry) : (s.setEntry n e).mctpEid = s.mctpEid := rfl
@[simp] theorem State.setEntry_records (n : Nat) (e : DirEntry) : (s.setEntry n e).records = s.records := rfl
@[simp] theorem State.setEntry_mem (n : Nat) (e : DirEntry) : (s.setEntry n e).mem = s.mem := rfl
@[simp] theorem State.setEntry_stg (n : Nat) (e : DirEntry) : (s.setEntry n e).stg = s.stg := rfl
@[simp] theorem State.setEntry_gkeys (n : Nat) (e : DirEntry) : (s.setEntry n e).gkeys = s.gkeys := rfl
@[simp] theorem State.setEntry_keyGen (n : Nat) (e : DirEntry) : (s.setEntry n e).keyGen = s.keyGen := rfl
@[simp] theorem State.setEntry_dies (n : Nat) (e : DirEntry) : (s.setEntry n e).dies = s.dies := rfl
@[simp] theorem State.setEntry_clusters (n : Nat) (e : DirEntry) : (s.setEntry n e).clusters = s.clusters := rfl
@[simp] theorem State.setEntry_signals (n : Nat) (e : DirEntry) : (s.setEntry n e).signals = s.signals := rfl
@[simp] theorem State.setEntry_acks (n : Nat) (e : DirEntry) : (s.setEntry n e).acks = s.acks := rfl
@[simp] theorem State.setEntry_stages (n : Nat) (e : DirEntry) : (s.setEntry n e).stages = s.stages := rfl
@[simp] theorem State.setEntry_modRuns (n : Nat) (e : DirEntry) : (s.setEntry n e).modRuns = s.modRuns := rfl
@[simp] theorem State.setEntry_rig (n : Nat) (e : DirEntry) : (s.setEntry n e).rig = s.rig := rfl
@[simp] theorem State.setEntry_requests (n : Nat) (e : DirEntry) : (s.setEntry n e).requests = s.requests := rfl
@[simp] theorem State.setEntry_nextReq (n : Nat) (e : DirEntry) : (s.setEntry n e).nextReq = s.nextReq := rfl
@[simp] theorem State.setEntry_jobs (n : Nat) (e : DirEntry) : (s.setEntry n e).jobs = s.jobs := rfl
@[simp] theorem State.setEntry_ports (n : Nat) (e : DirEntry) : (s.setEntry n e).ports = s.ports := rfl
@[simp] theorem State.setEntry_storage (n : Nat) (e : DirEntry) : (s.setEntry n e).storage = s.storage := rfl
@[simp] theorem State.setEntry_poison (n : Nat) (e : DirEntry) : (s.setEntry n e).poison = s.poison := rfl
@[simp] theorem State.setEntry_aside (n : Nat) (e : DirEntry) : (s.setEntry n e).aside = s.aside := rfl
@[simp] theorem State.setEntry_draws (n : Nat) (e : DirEntry) : (s.setEntry n e).draws = s.draws := rfl
@[simp] theorem State.setEntry_wire (n : Nat) (e : DirEntry) : (s.setEntry n e).wire = s.wire := rfl
@[simp] theorem State.setEntry_pending (n : Nat) (e : DirEntry) : (s.setEntry n e).pending = s.pending := rfl
@[simp] theorem State.setEntry_costumes_fresh (n : Nat) (e : DirEntry) : (s.setEntry n e).costumes.fresh = s.costumes.fresh := rfl
@[simp] theorem State.setEntry_costumes_freed (n : Nat) (e : DirEntry) : (s.setEntry n e).costumes.freed = s.costumes.freed := rfl
@[simp] theorem State.setEntry_costumes_audit (n : Nat) (e : DirEntry) : (s.setEntry n e).costumes.audit = s.costumes.audit := rfl
@[simp] theorem State.setEntry_costumes_auditNext (n : Nat) (e : DirEntry) : (s.setEntry n e).costumes.auditNext = s.costumes.auditNext := rfl
@[simp] theorem State.setEntry_costumes_res (n : Nat) (e : DirEntry) : (s.setEntry n e).costumes.res = s.costumes.res := rfl
@[simp] theorem State.setEntry_costumes_scrubs (n : Nat) (e : DirEntry) : (s.setEntry n e).costumes.scrubs = s.costumes.scrubs := rfl
@[simp] theorem State.setEntry_costumes_reserve (n : Nat) (e : DirEntry) : (s.setEntry n e).costumes.reserve = s.costumes.reserve := rfl
@[simp] theorem State.setEntry_costumes_cache (n : Nat) (e : DirEntry) : (s.setEntry n e).costumes.cache = s.costumes.cache := rfl
@[simp] theorem State.setEntry_costumes_ckpts (n : Nat) (e : DirEntry) : (s.setEntry n e).costumes.ckpts = s.costumes.ckpts := rfl
@[simp] theorem State.setEntry_costumes_ckAt (n : Nat) (e : DirEntry) : (s.setEntry n e).costumes.ckAt = s.costumes.ckAt := rfl
@[simp] theorem State.setEntry_costumes_ckLoc (n : Nat) (e : DirEntry) : (s.setEntry n e).costumes.ckLoc = s.costumes.ckLoc := rfl
@[simp] theorem State.setEntry_costumes_order (n : Nat) (e : DirEntry) : (s.setEntry n e).costumes.order = s.costumes.order := rfl
@[simp] theorem State.setEntry_qp_of (n : Nat) (e : DirEntry) (k : Nat) : (s.setEntry n e).qp k = s.qp k := rfl
@[simp] theorem State.setEntry_die_of (n : Nat) (e : DirEntry) (k : Nat) : (s.setEntry n e).die k = s.die k := rfl
@[simp] theorem State.setEntry_cluster_of (n : Nat) (e : DirEntry) (k : Nat) : (s.setEntry n e).cluster k = s.cluster k := rfl
@[simp] theorem State.setEntry_stage_of (n : Nat) (e : DirEntry) (k : Nat) : (s.setEntry n e).stage k = s.stage k := rfl
@[simp] theorem State.setEntry_port_of (n : Nat) (e : DirEntry) (k : Nat) : (s.setEntry n e).port k = s.port k := rfl
@[simp] theorem State.setEntry_job_of (n : Nat) (e : DirEntry) (k : Nat) : (s.setEntry n e).job k = s.job k := rfl
@[simp] theorem State.setEntry_gkey_of (n : Nat) (e : DirEntry) (k : Nat) : (s.setEntry n e).gkey k = s.gkey k := rfl
@[simp] theorem State.setEntry_readByte_of (n : Nat) (e : DirEntry) (k : Nat) : (s.setEntry n e).readByte k = s.readByte k := rfl
@[simp] theorem State.setEntry_self (n : Nat) (e : DirEntry) : (s.setEntry n e).entry n = e := Table.get_set_self _ _ _ _
theorem State.setEntry_other (n : Nat) (e : DirEntry) {k : Nat} (h : k ≠ n) : (s.setEntry n e).entry k = s.entry k := Table.get_set_ne _ _ _ h

/-! ### setJob -/

@[simp] theorem State.setJob_dev (n : Nat) (j : Job) : (s.setJob n j).dev = s.dev := rfl
@[simp] theorem State.setJob_power (n : Nat) (j : Job) : (s.setJob n j).power = s.power := rfl
@[simp] theorem State.setJob_thermal (n : Nat) (j : Job) : (s.setJob n j).thermal = s.thermal := rfl
@[simp] theorem State.setJob_host (n : Nat) (j : Job) : (s.setJob n j).host = s.host := rfl
@[simp] theorem State.setJob_store (n : Nat) (j : Job) : (s.setJob n j).store = s.store := rfl
@[simp] theorem State.setJob_fw (n : Nat) (j : Job) : (s.setJob n j).fw = s.fw := rfl
@[simp] theorem State.setJob_mctpEid (n : Nat) (j : Job) : (s.setJob n j).mctpEid = s.mctpEid := rfl
@[simp] theorem State.setJob_records (n : Nat) (j : Job) : (s.setJob n j).records = s.records := rfl
@[simp] theorem State.setJob_mem (n : Nat) (j : Job) : (s.setJob n j).mem = s.mem := rfl
@[simp] theorem State.setJob_stg (n : Nat) (j : Job) : (s.setJob n j).stg = s.stg := rfl
@[simp] theorem State.setJob_gkeys (n : Nat) (j : Job) : (s.setJob n j).gkeys = s.gkeys := rfl
@[simp] theorem State.setJob_keyGen (n : Nat) (j : Job) : (s.setJob n j).keyGen = s.keyGen := rfl
@[simp] theorem State.setJob_dies (n : Nat) (j : Job) : (s.setJob n j).dies = s.dies := rfl
@[simp] theorem State.setJob_clusters (n : Nat) (j : Job) : (s.setJob n j).clusters = s.clusters := rfl
@[simp] theorem State.setJob_signals (n : Nat) (j : Job) : (s.setJob n j).signals = s.signals := rfl
@[simp] theorem State.setJob_acks (n : Nat) (j : Job) : (s.setJob n j).acks = s.acks := rfl
@[simp] theorem State.setJob_stages (n : Nat) (j : Job) : (s.setJob n j).stages = s.stages := rfl
@[simp] theorem State.setJob_modRuns (n : Nat) (j : Job) : (s.setJob n j).modRuns = s.modRuns := rfl
@[simp] theorem State.setJob_rig (n : Nat) (j : Job) : (s.setJob n j).rig = s.rig := rfl
@[simp] theorem State.setJob_requests (n : Nat) (j : Job) : (s.setJob n j).requests = s.requests := rfl
@[simp] theorem State.setJob_nextReq (n : Nat) (j : Job) : (s.setJob n j).nextReq = s.nextReq := rfl
@[simp] theorem State.setJob_costumes (n : Nat) (j : Job) : (s.setJob n j).costumes = s.costumes := rfl
@[simp] theorem State.setJob_ports (n : Nat) (j : Job) : (s.setJob n j).ports = s.ports := rfl
@[simp] theorem State.setJob_storage (n : Nat) (j : Job) : (s.setJob n j).storage = s.storage := rfl
@[simp] theorem State.setJob_poison (n : Nat) (j : Job) : (s.setJob n j).poison = s.poison := rfl
@[simp] theorem State.setJob_aside (n : Nat) (j : Job) : (s.setJob n j).aside = s.aside := rfl
@[simp] theorem State.setJob_draws (n : Nat) (j : Job) : (s.setJob n j).draws = s.draws := rfl
@[simp] theorem State.setJob_wire (n : Nat) (j : Job) : (s.setJob n j).wire = s.wire := rfl
@[simp] theorem State.setJob_pending (n : Nat) (j : Job) : (s.setJob n j).pending = s.pending := rfl
@[simp] theorem State.setJob_qp_of (n : Nat) (j : Job) (k : Nat) : (s.setJob n j).qp k = s.qp k := rfl
@[simp] theorem State.setJob_die_of (n : Nat) (j : Job) (k : Nat) : (s.setJob n j).die k = s.die k := rfl
@[simp] theorem State.setJob_cluster_of (n : Nat) (j : Job) (k : Nat) : (s.setJob n j).cluster k = s.cluster k := rfl
@[simp] theorem State.setJob_stage_of (n : Nat) (j : Job) (k : Nat) : (s.setJob n j).stage k = s.stage k := rfl
@[simp] theorem State.setJob_port_of (n : Nat) (j : Job) (k : Nat) : (s.setJob n j).port k = s.port k := rfl
@[simp] theorem State.setJob_entry_of (n : Nat) (j : Job) (k : Nat) : (s.setJob n j).entry k = s.entry k := rfl
@[simp] theorem State.setJob_gkey_of (n : Nat) (j : Job) (k : Nat) : (s.setJob n j).gkey k = s.gkey k := rfl
@[simp] theorem State.setJob_readByte_of (n : Nat) (j : Job) (k : Nat) : (s.setJob n j).readByte k = s.readByte k := rfl
@[simp] theorem State.setJob_self (n : Nat) (j : Job) : (s.setJob n j).job n = some j := Table.find_put_self _ _ _
theorem State.setJob_other (n : Nat) (j : Job) {k : Nat} (h : k ≠ n) : (s.setJob n j).job k = s.job k := Table.find_put_ne _ _ h

/-! ### send -/

@[simp] theorem State.send_dev (o : Out) : (s.send o).dev = s.dev := rfl
@[simp] theorem State.send_power (o : Out) : (s.send o).power = s.power := rfl
@[simp] theorem State.send_thermal (o : Out) : (s.send o).thermal = s.thermal := rfl
@[simp] theorem State.send_host (o : Out) : (s.send o).host = s.host := rfl
@[simp] theorem State.send_store (o : Out) : (s.send o).store = s.store := rfl
@[simp] theorem State.send_fw (o : Out) : (s.send o).fw = s.fw := rfl
@[simp] theorem State.send_mctpEid (o : Out) : (s.send o).mctpEid = s.mctpEid := rfl
@[simp] theorem State.send_records (o : Out) : (s.send o).records = s.records := rfl
@[simp] theorem State.send_mem (o : Out) : (s.send o).mem = s.mem := rfl
@[simp] theorem State.send_stg (o : Out) : (s.send o).stg = s.stg := rfl
@[simp] theorem State.send_gkeys (o : Out) : (s.send o).gkeys = s.gkeys := rfl
@[simp] theorem State.send_keyGen (o : Out) : (s.send o).keyGen = s.keyGen := rfl
@[simp] theorem State.send_dies (o : Out) : (s.send o).dies = s.dies := rfl
@[simp] theorem State.send_clusters (o : Out) : (s.send o).clusters = s.clusters := rfl
@[simp] theorem State.send_signals (o : Out) : (s.send o).signals = s.signals := rfl
@[simp] theorem State.send_acks (o : Out) : (s.send o).acks = s.acks := rfl
@[simp] theorem State.send_stages (o : Out) : (s.send o).stages = s.stages := rfl
@[simp] theorem State.send_modRuns (o : Out) : (s.send o).modRuns = s.modRuns := rfl
@[simp] theorem State.send_rig (o : Out) : (s.send o).rig = s.rig := rfl
@[simp] theorem State.send_requests (o : Out) : (s.send o).requests = s.requests := rfl
@[simp] theorem State.send_nextReq (o : Out) : (s.send o).nextReq = s.nextReq := rfl
@[simp] theorem State.send_costumes (o : Out) : (s.send o).costumes = s.costumes := rfl
@[simp] theorem State.send_jobs (o : Out) : (s.send o).jobs = s.jobs := rfl
@[simp] theorem State.send_ports (o : Out) : (s.send o).ports = s.ports := rfl
@[simp] theorem State.send_storage (o : Out) : (s.send o).storage = s.storage := rfl
@[simp] theorem State.send_poison (o : Out) : (s.send o).poison = s.poison := rfl
@[simp] theorem State.send_aside (o : Out) : (s.send o).aside = s.aside := rfl
@[simp] theorem State.send_draws (o : Out) : (s.send o).draws = s.draws := rfl
@[simp] theorem State.send_pending (o : Out) : (s.send o).pending = s.pending := rfl
@[simp] theorem State.send_wire (o : Out) : (s.send o).wire = o :: s.wire := rfl
@[simp] theorem State.send_qp_of (o : Out) (k : Nat) : (s.send o).qp k = s.qp k := rfl
@[simp] theorem State.send_die_of (o : Out) (k : Nat) : (s.send o).die k = s.die k := rfl
@[simp] theorem State.send_cluster_of (o : Out) (k : Nat) : (s.send o).cluster k = s.cluster k := rfl
@[simp] theorem State.send_stage_of (o : Out) (k : Nat) : (s.send o).stage k = s.stage k := rfl
@[simp] theorem State.send_port_of (o : Out) (k : Nat) : (s.send o).port k = s.port k := rfl
@[simp] theorem State.send_entry_of (o : Out) (k : Nat) : (s.send o).entry k = s.entry k := rfl
@[simp] theorem State.send_job_of (o : Out) (k : Nat) : (s.send o).job k = s.job k := rfl
@[simp] theorem State.send_gkey_of (o : Out) (k : Nat) : (s.send o).gkey k = s.gkey k := rfl
@[simp] theorem State.send_readByte_of (o : Out) (k : Nat) : (s.send o).readByte k = s.readByte k := rfl

/-! ### Scalar registers, semaphores, chain records -/

@[simp] theorem Cluster.sreg_zero (c : Cluster) : c.sreg 0 = 0 := rfl
@[simp] theorem Cluster.setSreg_zero (c : Cluster) (v : BitVec 64) : c.setSreg 0 v = c := rfl
theorem Cluster.setSreg_self (c : Cluster) {r : Nat} (v : BitVec 64) (h : r ≠ 0) : (c.setSreg r v).sreg r = v := by
  simp [Cluster.setSreg, Cluster.sreg, h]
theorem Cluster.setSreg_other (c : Cluster) (r : Nat) (v : BitVec 64) {k : Nat} (h : k ≠ r) :
    (c.setSreg r v).sreg k = c.sreg k := by
  by_cases hr : r = 0
  · simp [Cluster.setSreg, hr]
  · simp [Cluster.setSreg, Cluster.sreg, hr, Table.get_set_ne _ _ _ h]
@[simp] theorem Cluster.setSem_self (c : Cluster) (n v : Nat) : (c.setSem n v).sem n = v := Table.get_set_self _ _ _ _
theorem Cluster.setSem_other (c : Cluster) (n v : Nat) {k : Nat} (h : k ≠ n) : (c.setSem n v).sem k = c.sem k :=
  Table.get_set_ne _ _ _ h
@[simp] theorem Arr.setChain_self (a : Arr) (b : Nat) (r : Chain) : (a.setChain b r).chain b = r :=
  Table.get_set_self _ _ _ _
theorem Arr.setChain_other (a : Arr) (b : Nat) (r : Chain) {k : Nat} (h : k ≠ b) : (a.setChain b r).chain k = a.chain k :=
  Table.get_set_ne _ _ _ h

end Sys2Proof.Machine
end

