-- ==== Sys2Proof/Laws/Memory.lean ====
section
/-! SUPPORT. Laws/Memory.lean: a byte read after a write is the byte written, other bytes are as before, and every
operation on memory keeps its canonical form. -/

namespace Sys2Proof.Machine

theorem Memory.wf_nil : Memory.wf [] := ⟨rfl, by simp⟩
theorem State.reset_mem_wf : Memory.wf State.reset.mem := Memory.wf_nil

theorem Memory.wf_set {m : Memory} (h : Memory.wf m) (a : Nat) (b : Byte) : Memory.wf (Table.set 0 m a b) :=
  ⟨Table.rising_set _ _ _ _ h.1, Table.ne_default_set _ _ _ _ h.2⟩

theorem Memory.wf_clear {m : Memory} (h : Memory.wf m) (lo len : Nat) : Memory.wf (Table.clear m lo len) :=
  ⟨Table.rising_clear _ _ _ h.1, fun c hc => h.2 c (List.mem_filter.mp hc).1⟩

/-! ### Reading after writing -/

theorem State.readByte_writeByte_self (s : State) (a : Nat) (b : Byte) : (s.writeByte a b).readByte a = b := by
  unfold State.writeByte State.readByte
  split
  · simp
  · simp [State.gkey]

theorem State.readByte_writeByte_other (s : State) (a : Nat) (b : Byte) {k : Nat} (h : k ≠ a) :
    (s.writeByte a b).readByte k = s.readByte k := by
  unfold State.writeByte
  split
  · unfold State.readByte
    split
    · exact Table.get_set_ne _ _ _ h
    · rfl
  · unfold State.readByte
    split
    · rfl
    · simp [State.gkey, Table.find_put_ne _ _ h]

/-- A run of writes leaves every byte outside it as it was. -/
theorem State.readByte_writeBytes_outside (b : Bytes) : ∀ (s : State) (a : Nat) {k : Nat}, (k < a ∨ a + b.length ≤ k) →
    (s.writeBytes a b).readByte k = s.readByte k := by
  induction b with
  | nil => intros; rfl
  | cons x r ih =>
    intro s a k h
    simp only [List.length_cons] at h
    rw [State.writeBytes, ih _ _ (by omega), State.readByte_writeByte_other _ _ _ (by omega)]

/-- A run of writes is read back byte by byte. -/
theorem State.readBytes_writeBytes (b : Bytes) : ∀ (s : State) (a : Nat),
    (s.writeBytes a b).readBytes a b.length = b := by
  induction b with
  | nil => intros; rfl
  | cons x r ih =>
    intro s a
    simp only [State.writeBytes, List.length_cons, State.readBytes, ih]
    rw [State.readByte_writeBytes_outside _ _ _ (Or.inl (Nat.lt_succ_self a)), State.readByte_writeByte_self]

theorem State.readByte_zeroRange_outside (s : State) (a len : Nat) {k : Nat} (h : k < a ∨ a + len ≤ k) :
    (s.zeroRange a len).readByte k = s.readByte k := by
  unfold State.zeroRange State.readByte
  split
  · exact Table.get_clear_outside _ _ _ _ h
  · rfl

/-! ### The canonical form -/

theorem State.writeByte_wf {s : State} (h : Memory.wf s.mem) (a : Nat) (b : Byte) : Memory.wf (s.writeByte a b).mem := by
  unfold State.writeByte
  split
  · exact Memory.wf_set h a b
  · exact h

theorem State.writeBytes_wf (b : Bytes) : ∀ {s : State}, Memory.wf s.mem → ∀ a, Memory.wf (s.writeBytes a b).mem := by
  induction b with
  | nil => intro s h a; exact h
  | cons x r ih => intro s h a; exact ih (State.writeByte_wf h a x) (a + 1)

theorem State.writeLE_wf {s : State} (h : Memory.wf s.mem) (a n x : Nat) : Memory.wf (s.writeLE a n x).mem :=
  State.writeBytes_wf _ h a

theorem State.zeroRange_wf {s : State} (h : Memory.wf s.mem) (a len : Nat) : Memory.wf (s.zeroRange a len).mem :=
  Memory.wf_clear h a len

theorem State.zeroStaging_wf {s : State} (h : Memory.wf s.mem) (a len : Nat) : Memory.wf (s.zeroStaging a len).mem :=
  State.writeBytes_wf _ h a

theorem State.rekey_wf {s : State} (h : Memory.wf s.mem) (k : Nat) : Memory.wf (s.rekey k).mem := h
theorem State.rekeyAll_wf {s : State} (h : Memory.wf s.mem) : Memory.wf s.rekeyAll.mem := h

end Sys2Proof.Machine
end

