-- ==== Sys2Proof/Tests/Slice0.lean ====
section
/-! SUPPORT. Tests/Slice0.lean: small checks of the model against the manual's own rules and examples, and for each
statement that has hypotheses a state and operands that meet them. -/

namespace Sys2Proof.Tests

open Sys2Proof.Machine

-- Each check is evaluated in turn, so that the file needs one thread.
set_option Elab.async false

/-! ### Helpers -/

/-- The state after a command. -/
def after (i : Instr) (s : State) : State := match exec i s with
  | .next t => t
  | _ => s
/-- The module with the reset's wipe over and the host reaching it. -/
def up : State := { State.reset with
  power := { State.reset.power with phase := .running, perst := false, defaultRig := false }
  host := { State.reset.host with ready := true, linkWidth := 8, linkRate := 32000 } }
def cl0 (w : Nat) : Cluster := { Cluster.init with st := .running, imem := [(0, w)] }
/-- `up` with sensor 3 at 110 degrees. -/
def hot : State := { up with thermal := { up.thermal with sensors := [(3, 1760)] } }
/-- `up`, 300 ms after the reset. -/
def later : State := { up with power := { up.power with timestamp := 300000000, storPerst := false } }
/-- Cluster 0 runs, and the next word of its program is `w`. -/
def run (w : Nat) : State := up.setCluster 0 (cl0 w)
/-- The module with a queue pair 0 on which a command has been put aside and may start. -/
def held (s : State) (op : Nat) (params data : Bytes) : State := { s with
  host := { s.host with
    held := [⟨0, 7, false, op, params, data, false⟩]
    nextId := 8
    qps := [(0, { Qp.init with en := true, st := .active, sqSize := 15, cqSize := 15, principal := 1, sqTail := 1
                               cmds := [⟨7, 0, 0, op, 0, 0, false, 0, none⟩] })] } }
def cmd (op : Nat) : HostCmd := ⟨0, toBytes 1 op ++ zeros 127, []⟩
/-- The status in the first completion on the wire. -/
def status (s : State) : Option Nat := s.wire.findSome? fun o => match o with
  | .dmaWrite _ b => some (fieldAt b 2 2)
  | _ => none
def iss : Issue := ⟨0, false, 0⟩
def mm0 : MmF := ⟨0, false, false, 0, 0, 0, 0, 0, 0, 0, false, 0, 0⟩
def acc0 : AccF := ⟨0, false, 0, 0, 1, false, false⟩
def dr0 : DrainF := ⟨0, false, 0, 0, false, false, false, false, 0, false, 0, 0, 0, 0, 0, 0, 0, 0, 0, 0, 0, 0, 0⟩
def ve0 : VecF := ⟨false, 1, 2, 3, 4, false, false, 0, false, (0, 0), (0, 0), (0, 0), (0, 0), (0, 0), 0, 0, 0, 0⟩
def mo0 : MovF := ⟨false, 0, false, 0, 0, 0, 0, 0, 0⟩
def sop0 : SopF := ⟨1, 2, 3, false, 0⟩
def sig0 : SignalF := ⟨1, false, 0, 0, 1⟩

/-! ### Well-formed commands, and a term that each check refuses -/

theorem test_wf_accepts : ([.nop 0, .sopAdd 0 sop0, .signal 0 sig0, .mm iss mm0, .accOpen iss acc0, .drain iss dr0, .vecAdd iss ve0,
    .movCopy iss mo0, .identify (cmd 1), .idle ⟨15, zeros 320⟩, .fenceProposal 99 6, .errDieRead ⟨99, 4, 4⟩, .start 1023 15, .br 0 6 31 31 4095,
    .wait 0 127 65535, .dload 0 63 31 63, .barrier 0 2 7, .sli 0 31 (2 ^ 64 - 1), .enrol (zeros 432)] : List Instr).all Instr.wf = true := by
  decide +kernel

theorem test_wf_refuses_common : ([.nop 1024, .halt 1024, .mm { iss with cl := 1024 } mm0, .vecAdd { iss with sem := 128 } ve0,
    .sopAdd 1024 sop0, .sopAdd 0 { sop0 with dst := 32 }, .sopAdd 0 { sop0 with a := 32 }, .sopAdd 0 { sop0 with b := 32 },
    .sopAdd 0 { sop0 with imm := 2 ^ 32 }, .signal 1024 sig0, .signal 0 { sig0 with tsem := 128 }, .signal 0 { sig0 with die := 64 },
    .signal 0 { sig0 with cluster := 16 }, .signal 0 { sig0 with count := 0 }, .signal 0 { sig0 with count := 65536 },
    .wait 1024 0 1, .wait 0 128 1, .wait 0 0 0, .wait 0 0 65536, .barrier 1024 0 0, .barrier 0 3 0, .barrier 0 0 8,
    .sli 1024 0 0, .sli 0 32 0, .sli 0 0 (2 ^ 64), .br 1024 0 0 0 0, .br 0 7 0 0 0, .br 0 0 32 0 0, .br 0 0 0 32 0, .br 0 0 0 0 4096,
    .dload 1024 0 0 0, .dload 0 64 0 0, .dload 0 0 32 0, .dload 0 0 0 64, .start 1024 0, .start 0 16, .abort 16] : List Instr).all
    (fun i => !i.wf) = true := by
  decide +kernel

theorem test_wf_refuses_arrays : ([.mm iss { mm0 with array := 3 }, .mm iss { mm0 with vm1 := 8 }, .mm iss { mm0 with dm1 := 8 },
    .mm iss { mm0 with chain := 64 }, .mm iss { mm0 with sdesc := 64 }, .mm iss { mm0 with sreg := 32 }, .mm iss { mm0 with xdesc := 64 },
    .mm iss { mm0 with xreg := 32 }, .mm iss { mm0 with osdesc := 64 }, .mm iss { mm0 with osreg := 32 },
    .accOpen iss { acc0 with array := 3 }, .accOpen iss { acc0 with base := 64 }, .accOpen iss { acc0 with cbase := 64 },
    .accOpen iss { acc0 with depth := 8 }, .stationaryLoadComplete 1024 0, .stationaryLoadComplete 0 3, .chunkSumInsert 1024 0,
    .chunkSumInsert 0 3, .chainRecordWrite 1024 0 [], .chainRecordWrite 0 3 [], .clipStatisticClear (2 ^ 40)] : List Instr).all
    (fun i => !i.wf) = true := by
  decide +kernel

theorem test_wf_refuses_drains : ([{ dr0 with array := 3 }, { dr0 with chain := 64 }, { dr0 with oslot := 64 }, { dr0 with gmode := 2 },
    { dr0 with vm1 := 8 }, { dr0 with ddesc := 64 }, { dr0 with dreg := 32 }, { dr0 with svdesc := 64 }, { dr0 with svreg := 32 },
    { dr0 with mdesc := 64 }, { dr0 with mreg := 32 }, { dr0 with qreg := 32 }, { dr0 with greg := 32 }, { dr0 with opidx := 4096 },
    { dr0 with opreg := 32 }, { dr0 with gsdesc := 64 }, { dr0 with gsreg := 32 }] : List DrainF).all
    (fun f => !(Instr.drain iss f).wf && !(Instr.gdrain iss f).wf) = true := by
  decide +kernel

theorem test_wf_refuses_vectors : ([{ ve0 with vd := 32 }, { ve0 with va := 32 }, { ve0 with vb := 32 }, { ve0 with vc := 32 },
    { ve0 with mask := 8 }, { ve0 with opa := (64, 0) }, { ve0 with opa := (0, 32) }, { ve0 with opb := (64, 0) },
    { ve0 with opc := (0, 32) }, { ve0 with opd := (64, 0) }, { ve0 with ope := (0, 32) }, { ve0 with qreg := 32 },
    { ve0 with lreg := 32 }, { ve0 with cat := 10 }, { ve0 with preg := 32 }] : List VecF).all
    (fun f => !(Instr.vecAdd iss f).wf && !(Instr.act iss f).wf) = true := by
  decide +kernel

theorem test_wf_refuses_movers : ([{ mo0 with mover := 2 }, { mo0 with sdesc := 64 }, { mo0 with sreg := 32 }, { mo0 with ddesc := 64 },
    { mo0 with dreg := 32 }, { mo0 with ereg := 32 }, { mo0 with areg := 32 }] : List MovF).all
    (fun f => !(Instr.movCopy iss f).wf && !(Instr.movGather iss f).wf) = true := by
  decide +kernel

theorem test_wf_refuses_host : ([.identify ⟨1024, zeros 128, []⟩, .identify ⟨0, zeros 127, []⟩, .sqTail 1024 0, .sqTail 0 (2 ^ 64),
    .cqHead 1024 0, .cqHead 0 (2 ^ 64), .qpEnable 1024 0, .qpEnable 0 (2 ^ 64), .qpDisable 1024 0, .qpDisable 0 (2 ^ 64), .qpDisabled 1024,
    .registerWrite .bar0 0 2 0, .registerWrite .bar0 0 8 (2 ^ 64), .dropCountsRead 100, .slowCountsRead 100, .uestatRead 100,
    .errDieRead ⟨100, 0, 8⟩, .errDieRead ⟨0, 2, 4⟩, .errDieRead ⟨0, 4, 8⟩, .sessionExpiry 1024, .hostDmaReadFailure true ⟨1024, zeros 128, []⟩, .configurationRequest false 4096 4 0,
    .configurationRequest false 0 3 0, .configurationRequest true 0 4 (2 ^ 64), .functionReset 3, .enrol (zeros 431), .replace (zeros 433),
    .remove [], .modelKey (zeros 431)] : List Instr).all (fun i => !i.wf) = true := by
  decide +kernel

theorem test_wf_refuses_events : ([.instructionCompletion 1024 0, .instructionCompletion 0 10, .staleTransaction 100 0 0,
    .staleTransaction 0 16 0, .staleTransaction 0 0 (2 ^ 32), .stepStart 16, .stepComplete 16, .stepReplay 16, .cadencePeriodBoundary 16,
    .quiesceTimeout 16, .tuningPassStart (2 ^ 24), .tuningPassComplete (2 ^ 24), .windowEnd (2 ^ 24), .jobRotation (2 ^ 24),
    .tuningRollback (2 ^ 24), .shardUpdate (2 ^ 24) 0, .shardUpdate 0 100, .publicationSwitch (2 ^ 24), .costumeLoad 16 0,
    .costumeLoad 0 (2 ^ 32), .costumeLoadComplete 16 0, .costumeRelocation 16 0 0, .pageScrubComplete 0 (2 ^ 32), .retireComplete (2 ^ 32),
    .blockFinal (2 ^ 24) 0, .blockFinal 0 (2 ^ 24), .deadlineExpiry (2 ^ 24), .holdExpiry 0 (2 ^ 24), .verdictTimeout (2 ^ 24),
    .paramTimeout (2 ^ 24) 0, .joinTimeout (2 ^ 24), .idle ⟨16, zeros 320⟩, .reduce ⟨0, zeros 319⟩, .portDown 16, .portTrained ⟨16, false⟩,
    .refetch (2 ^ 40), .instructionReplay 1024 0 true, .instructionReplay 0 10 true, .backgroundScrubRead 16 0 .good,
    .backgroundScrubRead 0 (2 ^ 40) .good, .fenceProposal 100 1, .fenceProposal 0 0, .fenceProposal 0 7, .dieFence 100,
    .storageEnumeration (List.replicate 17 ⟨1, []⟩), .telemetryUpdate 0 0 [], .thermalSample [], .thermalTrip 512, .pldmSensorRead 65536,
    .receiverLockChange 16 true, .frameParityFailure 16, .nvmeControllerFatal 16] : List Instr).all (fun i => !i.wf) = true := by
  decide +kernel

/-! ### Words of tile programs, written out from the field tables of the chapter (R228, R231 to R248) -/

theorem test_words : ([
  (0x00000000000000001F61FF5E7208B710, .mm ⟨5, true, 91⟩ ⟨0, true, false, 0, 2, 14, 47, 30, 31, 24, false, 31, 0⟩),
    (0x00000000000000035A0104708954D011, .mmT ⟨5, false, 104⟩ ⟨2, false, true, 2, 1, 17, 56, 8, 16, 0, false, 26, 13⟩),
    (0x000000000000000255DC29E2CA6C5412, .mmW ⟨5, false, 42⟩ ⟨2, true, false, 3, 2, 25, 49, 19, 2, 23, true, 21, 9⟩),
    (0x000000000000000000000019AC0C2118, .accOpen ⟨5, true, 16⟩ ⟨2, true, 0, 43, 1, true, true⟩),
    (0x000000000000000000000012F3D4F719, .accMerge ⟨5, true, 123⟩ ⟨2, false, 61, 60, 2, false, true⟩),
    (0x000000000000000000000016BB50B61A, .accRelease ⟨5, false, 91⟩ ⟨0, false, 53, 46, 6, false, true⟩),
    (0x000149CB1A554DEB697B124FEDF25C20, .drain ⟨5, false, 46⟩ ⟨1, false, 31, 59, true, true, true, true, 0, true, 4, 4, 27, 11, 13, 43, 23, 9, 21, 2258, 5, 39, 20⟩),
    (0x0001A410D415F8874EBD8288F6705B21, .gdrain ⟨5, true, 45⟩ ⟨0, false, 39, 61, false, false, false, true, 0, false, 5, 32, 29, 53, 9, 7, 2, 31, 21, 1696, 8, 16, 26⟩),
    (0x1555E0E967C947EA3FD3BA1A6E015628, .vecAdd ⟨5, false, 43⟩ ⟨true, 23, 9, 3, 26, true, false, 7, false, (58, 31), (40, 30), (35, 18), (60, 25), (18, 7), 24, 11, 5, 21⟩),
    (0x16197634C3C02D5961F6D625E2372C28, .rsq ⟨5, false, 22⟩ ⟨true, 17, 23, 4, 22, false, true, 5, true, (62, 16), (37, 21), (22, 0), (60, 16), (41, 17), 29, 18, 1, 22⟩),
    (0x0B4530314F556A593D7137E2EC73B128, .osumT ⟨5, true, 88⟩ ⟨true, 22, 11, 28, 23, true, false, 2, false, (46, 30), (36, 5), (53, 10), (53, 19), (34, 1), 12, 10, 4, 11⟩),
    (0x0000000000000000000BA1D11AA25C30, .movCopy ⟨5, false, 46⟩ ⟨false, 1, false, 21, 3, 17, 7, 20, 11⟩),
    (0x000000000000000000177B49C59E6330, .movGather ⟨5, true, 49⟩ ⟨false, 1, true, 44, 24, 9, 13, 15, 23⟩),
    (0x00000000000000000000ABCD009A0002, .wait 5 77 0xABCD),
    (0x000000000000000012340005D7C80003, .signal 5 ⟨100, true, 43, 11, 0x1234⟩),
    (0x00000000000000000000000000340004, .barrier 5 2 6),
    (0xFEDCBA98765432100000000000260008, .sli 5 19 0xFEDCBA9876543210),
    (0x0000000089ABCDEF00000014FA300009, .sopSar 5 ⟨17, 30, 9, true, 0x89ABCDEF⟩),
    (0x000000000000000000000FA52AAC000A, .br 5 6 21 10 0xFA5),
    (0x0000000000000000000000025AD4000B, .dload 5 42 21 37),
    (0, .nop 5),
    (1, .halt 5)] : List (Nat × Instr)).all
    (fun p => TileWord.toInstr 5 p.1 == some p.2 && TileWord.ofInstr p.2 == some (5, p.1)) = true := by decide +kernel
/-- Reserved opcodes and reserved functions decode to nothing (R229). -/
theorem test_words_reserved : ([0x05, 0x0C, 0x13, 0x1B, 0x22, 0x29, 0x31, 0xFF, 0x09 + 13 * 2 ^ 17, 0x28 + 0x0E * 2 ^ 17,
    0x28 + 0x23 * 2 ^ 17] : List Nat).all (fun w => (TileWord.toInstr 5 w).isNone) = true := by decide +kernel


/-! ### Tile programs: states that meet the hypotheses, and what follows in them -/

/-- A stage configuration over compute die 0 alone. -/
def cfg0 : StageCfg :=
  { dies := [0], model := 5, owner := 0, fixedCadence := false, background := false, split := false, quantum := 1, scrubPeriod := 0
    entryTune := 1, entryServe := 0, cadPeriod := 0, cadRows := 64, ops := [], qs := [], heads := [], maxTrows := 64, passRec := 0x1400_0000
    shadow := 0, shadowLen := 0, runs := [⟨0, 1, 1, 0⟩, ⟨2, 1, 2, 0⟩, ⟨3, 1, 3, 0⟩, ⟨4, 1, 6, 0⟩, ⟨5, 1, 9, 0⟩, ⟨6, 1, 5, 0⟩], paths := [], digest := [] }
/-- A READY stage 0 of that configuration. -/
def ready (s : State) : State := s.setStage 0 { Stage.init with st := 2, epoch := 3, cfg := some cfg0 }
def step0 : Machine.Step :=
  { groups := [], table := 0, passIdx := 0, tuneN := 0, seed := 0, pass := none, attempt := 1, aborted := false, cause := 0, parity := false, errors := [] }
/-- Stage 0 with a running step. -/
def stepping (s : State) (p : Machine.Step) : State := s.setStage 0 { s.stage 0 with step := some p }
def withRegs (l : Tab (BitVec 64)) (w : Nat) : State := up.setCluster 0 { cl0 w with sregs := l }

theorem test_step_runs_front : step { up with pending := [.modEnLow, .modEnHigh true] } = exec .modEnLow { up with pending := [.modEnHigh true] } := rfl
theorem test_step_idles : (match step up with
    | .next t => t.power.timestamp == 10 && t == { up with power := t.power }
    | _ => false) = true := by decide +kernel
theorem test_withFetchWord_none : State.reset.withFetchWord 8 5 = State.reset := rfl

/-- R232: 3 - 5 wraps to 2^64 - 2, with the immediate sign-extended. -/
theorem test_sop_sub : (withRegs [(2, 3), (3, 5)] (TileWord.sop 1 sop0)).canIssue 0 (TileWord.sop 1 sop0) = true ∧
    ((after (.sopSub 0 sop0) (withRegs [(2, 3), (3, 5)] (TileWord.sop 1 sop0))).cluster 0).sreg 1 = 0xFFFFFFFFFFFFFFFE := by decide +kernel
theorem test_sop_sar : ((after (.sopSar 0 { sop0 with immsel := true, imm := 65 })
    (withRegs [(2, 0x8000000000000000)] (TileWord.sop 8 { sop0 with immsel := true, imm := 65 }))).cluster 0).sreg 1 = 0xC000000000000000 := by
  decide +kernel
theorem test_sop_discards : (after (.sopAdd 0 { sop0 with dst := 0 }) (withRegs [(2, 3)] (TileWord.sop 0 { sop0 with dst := 0 }))).cluster 0 =
    { cl0 (TileWord.sop 0 { sop0 with dst := 0 }) with sregs := [(2, 3)], pc := 1 } := by decide +kernel
/-- R233: BLT is signed. -/
theorem test_br : (withRegs [(1, 0xFFFFFFFFFFFFFFFF)] (TileWord.br 3 1 2 77)).canIssue 0 (TileWord.br 3 1 2 77) = true ∧
    ((after (.br 0 3 1 2 77) (withRegs [(1, 0xFFFFFFFFFFFFFFFF)] (TileWord.br 3 1 2 77))).cluster 0).pc = 77 ∧
    ((after (.br 0 5 1 2 77) (withRegs [(1, 0xFFFFFFFFFFFFFFFF)] (TileWord.br 5 1 2 77))).cluster 0).pc = 1 := by decide +kernel
theorem test_wait : let s := up.setCluster 0 { cl0 (TileWord.wait 4 2) with sems := [(4, 3)] }
    s.canIssue 0 (TileWord.wait 4 2) = true ∧ ((after (.wait 0 4 2) s).cluster 0).sem 4 = 1 ∧
      after (.wait 0 4 4) (up.setCluster 0 { cl0 (TileWord.wait 4 4) with sems := [(4, 3)] }) =
        up.setCluster 0 { cl0 (TileWord.wait 4 4) with sems := [(4, 3)] } := by decide +kernel
theorem test_signal_local : let s := up.setCluster 0 { cl0 (TileWord.signal { sig0 with count := 9 }) with sems := [(1, 0xFFFFFFFE)] }
    s.canIssue 0 (TileWord.signal { sig0 with count := 9 }) = true ∧ s.inFlight 0 = 0 ∧
      ((after (.signal 0 { sig0 with count := 9 }) s).cluster 0).sem 1 = 0xFFFFFFFF ∧
      ((after (.signal 0 { sig0 with count := 9 }) s).cluster 0).semOvf = true := by decide +kernel
theorem test_signal_remote : let f : SignalF := { sig0 with remote := true, cluster := 3 }
    let s := (ready up).setCluster 0 (cl0 (TileWord.signal f))
    s.canIssue 0 (TileWord.signal f) = true ∧ (after (.signal 0 f) s).signals = [⟨0, 3, 1, 1, 0, 3⟩] ∧
      ((after (.signal 0 { f with die := 1 }) ((ready up).setCluster 0 (cl0 (TileWord.signal { f with die := 1 })))).cluster 0).faultStatus = 0x0104 := by
  decide +kernel
theorem test_signal_arrives : let g : Signal := ⟨0, 3, 1, 5, 0, 3⟩
    let s : State := { ready up with signals := [g] }
    let t := after (.remoteSignalArrival 0) s
    (t.cluster 3).sem 1 = 5 ∧ t.acks = [g] ∧ (after (.signalAckArrival 0) { t with clusters := Table.put t.clusters 0 { Cluster.init with outSignals := 2 } }).cluster 0 =
      { Cluster.init with outSignals := 1 } := by decide +kernel
theorem test_stale : let t := after (.remoteSignalArrival 0) { ready up with signals := [(⟨0, 3, 1, 5, 0, 2⟩ : Signal)] }
    (t.die 0).epochStale = 1 ∧ ((after (.staleTransaction 64 0 2) (ready up)).die 64).epochStale = 1 := by decide +kernel
theorem test_barrier : let s := (ready up).setCluster 0 (cl0 (TileWord.barrier 0 1))
    s.canIssue 0 (TileWord.barrier 0 1) = true ∧ s.inFlight 0 = 0 ∧ ((after (.barrier 0 0 1) s).cluster 0).pc = 1 := by decide +kernel
/-- Die scope: the barrier waits for the other running sequencer of the die. -/
theorem test_barrier_waits : let s := ((ready up).setCluster 0 (cl0 (TileWord.barrier 1 1))).setCluster 1 (cl0 0)
    ((after (.barrier 0 1 1) s).cluster 0).arrived = some (1, 1) ∧ ((after (.barrier 0 1 1) s).cluster 0).pc = 0 := by decide +kernel
theorem test_halt : let s := run TileWord.halt
    s.canIssue 0 TileWord.halt = true ∧ s.inFlight 0 = 0 ∧ ((after (.halt 0) s).cluster 0).st = .halted := by decide +kernel
theorem test_nop_sli : (run TileWord.nop).canIssue 0 TileWord.nop = true ∧ ((after (.nop 0) (run TileWord.nop)).cluster 0).pc = 1 ∧
    ((after (.sli 0 7 0xFEDCBA9876543210) (run (TileWord.sli 7 0xFEDCBA9876543210))).cluster 0).sreg 7 = 0xFEDCBA9876543210 := by decide +kernel
/-- R234: two records into slots 62 and 63; a third does not fit. -/
theorem test_dload : let s := (withRegs [(1, 0x10_0000_0040)] (TileWord.dload 62 1 1)).writeLE 0x10_0000_0080 2 0xBEEF
    s.canIssue 0 (TileWord.dload 62 1 1) = true ∧ s.dloadOk 0 0x10_0000_0040 2 = true ∧ s.poisoned 0x10_0000_0040 128 = false ∧
      ((after (.dload 0 62 1 1) s).cluster 0).dslot 63 = 0xBEEF ∧
      ((after (.dload 0 62 1 2) (withRegs [(1, 0x10_0000_0040)] (TileWord.dload 62 1 2))).cluster 0).faultStatus = 0x0101 := by decide +kernel
theorem test_completion : let e : Issued := { (run 0).entryFor { iss with sigen := true, sem := 9 } 0x28 false 0 with status := 0x0104 }
    let s := (run 0).setUnit 0 7 [e]
    takeDone (fun e => e.cluster == 0) (s.unitQueue 0 7) = some (e, []) ∧
      ((after (.instructionCompletion 0 7) s).cluster 0).sem 9 = 1 ∧ ((after (.instructionCompletion 0 7) s).cluster 0).faultStatus = 0x0104 := by
  decide +kernel
theorem test_step_fault : let s := stepping ((ready up).setCluster 0 (cl0 0)) step0
    let t := (s.stepFault 0 0x0204 7 5 2 false).stepFault 0 0x0101 1 6 3 false
    (t.cluster 0).faultStatus = 0x0204 ∧ (t.cluster 0).st = .faulted ∧ ((t.stage 0).step.map (·.cause)) = some 0x0204 := by decide +kernel
theorem test_start : let s := (ready up).setCluster 1 { Cluster.init with entries := [9, 8], args := [[], [1, 2, 3, 4]], sregs := [(0, 1), (20, 5)] }
    s.stageOfDie 0 = 0 ∧ ((after (.start 1 1) s).cluster 1).pc = 8 ∧ ((after (.start 1 1) s).cluster 1).sreg 6 = 2 ∧
      ((after (.start 1 1) s).cluster 1).sreg 20 = 0 ∧ ((after (.start 1 1) s).cluster 1).sreg 9 = 1 := by decide +kernel
theorem test_abort : let s := stepping ((ready up).setCluster 0 (cl0 0)) { step0 with cause := 0x0702, parity := true }
    ((s.stage 0).step.map (·.replayable)) = some true ∧ ((after (.abort 0) s).cluster 0).st ≠ .running ∧
      (((after (.abort 0) s).stage 0).step.map (·.aborted)) = some true := by decide +kernel


/-! ### Arrays, accumulators, drains, movers -/

/-- The 512 bits of a descriptor of rank 2. -/
def descOf (ty : Nat) (brick : Bool) (base sbase rows cols : Nat) : Nat :=
  2 + ty * 2 ^ 4 + b2n brick * 2 ^ 8 + 3 * 2 ^ 16 + base * 2 ^ 64 + sbase * 2 ^ 104 + cols * 2 ^ 224 + rows * 2 ^ 248
def brickAt : Nat := 0x10_0000_0000
def hdrAt : Nat := 0x10_0000_0100
/-- One T2 brick in the operand memory of cluster 0: exponent 127, its first code 1, named by slot 0. -/
def withBrick (w : Nat) : State :=
  (((ready up).setCluster 0 { cl0 w with dslots := [(0, descOf tyT2 true brickAt hdrAt 16 16)] }).writeLE hdrAt 4
    (reTag (127 * 2 ^ 0) (brickTag brickAt))).writeLE brickAt 1 1

def kept : MmF := { mm0 with keep := true }
theorem test_mm : let s0 := withBrick (TileWord.mm 0x10 iss kept)
    let s := s0.setCluster 0 ((s0.cluster 0).setArr 0 { (s0.cluster 0).arr 0 with tileD := some ⟨tyT2, 0, 0, 16, []⟩ })
    (Instr.mm iss kept).wf = true ∧ s.canIssue 0 (TileWord.mm 0x10 iss kept) = true ∧ s.room 0 1 = true ∧ s.mmCheck 0 iss kept = 0 ∧
      (s.readBricks ((s.cluster 0).desc 0) 1 [0, 0] 1 1).1 = 0 := by decide +kernel
theorem test_mm_fails : let s := run (TileWord.mm 0x11 iss mm0)
    s.canIssue 0 (TileWord.mm 0x11 iss mm0) = true ∧ s.mmCheck 1 iss mm0 ≠ 0 ∧
      (((after (.mmT iss mm0) s).unitQueue 0 1).map (·.status)) = [s.mmCheck 1 iss mm0] := by decide +kernel
/-- A header with E = 255 fails the instruction (R203). -/
theorem test_mm_invalid : let s := (withBrick (TileWord.mm 0x10 iss mm0)).writeLE hdrAt 4 (reTag 255 (brickTag brickAt))
    s.mmCheck 0 iss mm0 = 0 ∧ (((after (.mm iss mm0) s).unitQueue 0 1).map (·.status)) = [0x0204] := by decide +kernel
def chain0 : Chain := { Chain.free with st := 1, depth := 1 }
/-- Cluster 0 with chains on array 0 and a queue there. -/
def withChains (w : Nat) (l : Tab Chain) (q : List Issued) : State :=
  up.setCluster 0 ((cl0 w).setArr 0 { (cl0 w).arr 0 with chains := l, queue := q })
theorem test_acc_open : let s := withChains (TileWord.acc 0x18 iss acc0) [] []
    (Instr.accOpen iss acc0).wf = true ∧ s.canIssue 0 (TileWord.acc 0x18 iss acc0) = true ∧ s.room 0 1 = true ∧
      (after (.accOpen iss acc0) s).chainOf 0 0 0 = chain0 := by decide +kernel
/-- Slots 62 and 63 do for a depth of 1; a base of 63 runs past the last slot; an owned slot is a hazard (R126). -/
theorem test_acc_open_edges :
    (((after (.accOpen iss { acc0 with base := 62 }) (withChains (TileWord.acc 0x18 iss { acc0 with base := 62 }) [] [])).unitQueue 0 1).map (·.status)) = [0] ∧
    (((after (.accOpen iss { acc0 with base := 63 }) (withChains (TileWord.acc 0x18 iss { acc0 with base := 63 }) [] [])).unitQueue 0 1).map (·.status)) = [0x0203] ∧
    (((after (.accOpen iss acc0) (withChains (TileWord.acc 0x18 iss acc0) [(1, chain0)] [])).unitQueue 0 1).map (·.status)) = [0x0202] := by
  decide +kernel
theorem test_acc_merge : let f : AccF := { acc0 with cbase := 8 }
    let s := withChains (TileWord.acc 0x19 iss f) [(0, { chain0 with count := 1, occ := 1, rowsSet := true }), (8, { chain0 with st := 2, cause := 0x0201 })] []
    (Instr.accMerge iss f).wf = true ∧ s.canIssue 0 (TileWord.acc 0x19 iss f) = true ∧ s.quiet 0 0 [0, 8] = true ∧
      foldOcc 1 2 (List.range 8) 1 = some 3 ∧ ((after (.accMerge iss f) s).chainOf 0 0 0).cause = 0x0201 ∧
      (after (.accMerge iss f) s).chainOf 0 0 8 = Chain.free := by decide +kernel
theorem test_acc_release : let s := withChains (TileWord.acc 0x1A iss acc0) [(0, { chain0 with st := 2, cause := 0x0201 })] []
    s.canIssue 0 (TileWord.acc 0x1A iss acc0) = true ∧ s.quiet 0 0 [0] = true ∧ (after (.accRelease iss acc0) s).chainOf 0 0 0 = Chain.free := by
  decide +kernel
theorem test_chunk_sum : let e : Issued := { (run 0).entryFor iss 0x10 false 0 with
      rows := List.replicate 16 (List.replicate 128 (0x3F800000, 0), List.replicate 128 (0, 0)), row := 15, carries := true }
    let s := withChains 0 [(0, chain0)] [e]
    ((s.cluster 0).arr 0).running false = some 0 ∧ restLevel 0 1 9 0 = some 0 ∧ s.slotPoisoned 0 0 chain0 0 0 15 = false ∧
      layoutOf 0 chain0 [] = 0 ∧ ((after (.chunkSumInsert 0 0) s).chainOf 0 0 0).count = 1 := by decide +kernel
theorem test_stationary_load : let e := { (run 0).entryFor iss 0x10 false 0 with waitsTile := true }
    (((after (.stationaryLoadComplete 0 0) (withChains 0 [] [e])).unitQueue 0 1).map (·.waitsTile)) = [false] := by decide +kernel
/-- R128: a record with a reserved state is refused, and one that fits is taken whole. -/
theorem test_chain_records : let s := withChains 0 [] []
    (Chain.ofWord 3).st = 3 ∧ (after (.chainRecordWrite 0 0 [(5, 3)]) s).wire = [.recordStatus 0x0202] ∧
      (after (.chainRecordWrite 0 0 [(5, 1)]) s).wire = [.recordStatus 0] ∧ ((after (.chainRecordWrite 0 0 [(5, 1)]) s).chainOf 0 0 5).st = 1 := by
  decide +kernel
theorem test_drain_fails : let s := run (TileWord.drain 0x20 iss dr0)
    (Instr.drain iss dr0).wf = true ∧ s.canIssue 0 (TileWord.drain 0x20 iss dr0) = true ∧ s.room 0 4 = true ∧ s.quiet 0 0 [0] = true ∧
      s.drainCheck iss dr0 (s.drainOps false iss dr0) ≠ 0 ∧ s.sameBytes s := by
  exact ⟨by decide +kernel, by decide +kernel, by decide +kernel, by decide +kernel, by decide +kernel, fun _ => rfl⟩
/-- An F32 tensor of 16 by 128 in operand memory, and a chain of one chunk sum with 16 rows. -/
def draining (st : Nat) : State :=
  let w := TileWord.drain 0x20 iss dr0
  let c := (cl0 w).setArr 0 { (cl0 w).arr 0 with chains := [(0, { chain0 with st := st, cause := if st = 2 then 0x0201 else 0, count := 1, occ := 1, rowsSet := true })] }
  (ready up).setCluster 0 { c with dslots := [(0, descOf tyF32 false brickAt 0 16 128)] }
theorem test_drain_checks : let s := draining 1
    s.drainCheck iss dr0 (s.drainOps false iss dr0) = 0 ∧ s.drainReads iss dr0 (s.drainOps false iss dr0) = 0 ∧ s.quiet 0 0 [0] = true := by
  decide +kernel
theorem test_drain_poisoned : let s := draining 2
    s.drainCheck iss dr0 (s.drainOps false iss dr0) = 0 ∧ (((after (.drain iss dr0) s).unitQueue 0 4).map (·.status)) = [0x0206] ∧
      (after (.drain iss dr0) s).chainOf 0 0 0 = Chain.free := by decide +kernel
/-- MOV.COPY of two F32 elements from one row to another. -/
def moving (kind : Nat) (f : MovF) : State :=
  (((ready up).setCluster 0 { cl0 (TileWord.mov kind iss f) with
    sregs := [(4, 2 + 2 ^ 32)], dslots := [(0, descOf tyF32 false brickAt 0 1 2), (1, descOf tyF32 false 0x10_0000_0200 0 1 2)] })).writeLE brickAt 8 0x4000_0000_3F80_0000
def mo1 : MovF := { mo0 with ddesc := 1, ereg := 4 }
theorem test_mov_copy : let s := moving 0 mo1
    (Instr.movCopy iss mo1).wf = true ∧ s.canIssue 0 (TileWord.mov 0 iss mo1) = true ∧ s.room 0 8 = true ∧
      s.movCheck 0 iss mo1 ((s.cluster 0).movOps mo1) = 0 ∧ s.movBusy 0 ((s.cluster 0).movOps mo1) = false ∧
      (after (.movCopy iss mo1) s).readLE 0x10_0000_0200 8 = 0x4000_0000_3F80_0000 := by decide +kernel
theorem test_mov_fails : let s := run (TileWord.mov 2 iss mo0)
    s.movCheck 2 iss mo0 ((s.cluster 0).movOps mo0) ≠ 0 ∧ (((after (.movQuant iss mo0) s).unitQueue 0 8).map (·.status)) ≠ [0] := by decide +kernel

/-! ### Vector engine -/

def withV (fn : Nat) (f : VecF) (v : Tab (BitVec 32)) : State := up.setCluster 0 { cl0 (TileWord.vec fn iss f) with v := v }
/-- 1 + 2 = 3 in lane 255. -/
theorem test_vec_add : let s := withV 0 ve0 [(2 * 256 + 255, 0x3F800000), (3 * 256 + 255, 0x40000000)]
    s.vecReady 0 iss ve0 = true ∧ ((after (.vecAdd iss ve0) s).cluster 0).v32 1 255 = 0x40400000 ∧
      (((after (.vecAdd iss ve0) s).unitQueue 0 7).map (·.status)) = [0] := by decide +kernel
/-- A masked-off element keeps its value. -/
theorem test_vec_masked : let f := { ve0 with men := true, mask := 2 }
    let s := withV 5 f [(256, 0x40A00000), (2 * 256, 0x40000000)]
    s.vecReady 5 iss f = true ∧ ((after (.vecMax iss f) s).cluster 0).v32 1 0 = 0x40A00000 := by decide +kernel
theorem test_cmpgt : let f := { ve0 with vd := 9 }
    let s := withV 8 f [(2 * 256 + 7, 0x40000000)]
    s.vecReady 8 iss f = true ∧ (Table.get 0 ((after (.cmpgt iss f) s).cluster 0).m 1) = 0x80 := by decide +kernel
theorem test_sel : let s := up.setCluster 0 { cl0 (TileWord.vec 0x0B iss ve0) with v := [(2 * 256, 7), (3 * 256, 8), (3 * 256 + 1, 9)], m := [(4, 1)] }
    s.vecReady 0x0B iss ve0 = true ∧ ((after (.sel iss ve0) s).cluster 0).v32 1 0 = 7 ∧ ((after (.sel iss ve0) s).cluster 0).v32 1 1 = 9 := by
  decide +kernel
theorem test_setrm : let f := { ve0 with va := 7 }
    (withV 0x3C f []).vecReady 0x3C iss f = true ∧ ((after (.setrm iss f) (withV 0x3C f [])).cluster 0).rm = 3 := by decide +kernel
/-- LD of one F32 element. -/
def loading (fn : Nat) (f : VecF) (ty : Nat) : State :=
  ((ready up).setCluster 0 { cl0 (TileWord.vec fn iss f) with
    sregs := [(6, 2 ^ 32 + 1)], v := [(256, 0x40490FDB)], dslots := [(0, descOf ty false brickAt 0 1 1), (1, descOf tyF32 false 0x10_0000_0200 0 1 1)] }).writeLE brickAt 4 0xC0000000
def ve1 : VecF := { ve0 with lreg := 6, opb := (1, 0) }
theorem test_ld : let s := loading 0x20 ve1 tyF32
    s.vecReady 0x20 iss ve1 = true ∧ s.busyA iss ve1 false = false ∧ s.vopCheck 0 false false ((s.cluster 0).vop ve1.opa) = 0 ∧
      s.vopStatus ((s.cluster 0).vop ve1.opa) 1 1 = 0 ∧ ((after (.ld iss ve1) s).cluster 0).v32 1 0 = 0xC0000000 := by decide +kernel
theorem test_st : let s := loading 0x21 ve1 tyF32
    s.vecReady 0x21 iss ve1 = true ∧ s.vopCheck 0 true false ((s.cluster 0).vop ve1.opa) = 0 ∧
      (after (.st iss ve1) s).readLE brickAt 4 = 0x40490FDB := by decide +kernel
theorem test_rowsum : let s := loading 0x28 ve1 tyF32
    s.vecReady 0x28 iss ve1 = true ∧ s.busyRow iss ve1 = false ∧ s.vopCheck 0 true false ((s.cluster 0).vop ve1.opb) = 0 ∧
      (after (.rowsum iss ve1) s).readLE 0x10_0000_0200 4 = 0xC0000000 := by decide +kernel
theorem test_act_fails : let s := run (TileWord.vec 0x30 iss ve0)
    s.vecReady 0x30 iss ve0 = true ∧ s.busyAct iss ve0 true = false ∧ (((after (.act iss ve0) s).unitQueue 0 7).map (·.status)) ≠ [0] := by decide +kernel
theorem test_osum_fails : let s := run (TileWord.vec 0x39 iss ve0)
    s.vecReady 0x39 iss ve0 = true ∧ s.busyOsum iss ve0 true = false ∧ (((after (.osumT iss ve0) s).unitQueue 0 7).map (·.status)) ≠ [0] := by decide +kernel
/-- R39, R42: a brick of T2 codes reads back. -/
theorem test_brick_reads_back : let d := Desc.ofNat (descOf tyT2 true brickAt hdrAt 16 16)
    let codes := List.replicate 255 1 ++ [3]
    let t := up.putBrick d 0 127 codes none
    (checkHdr (t.readLE (d.hdrAddr 0) 4) (brickTag (d.brickAddr 0))).1 = 0 ∧
      bits (t.readByte (d.brickAddr 0 + (elemPos tyT2 15 15).1)).toNat (elemPos tyT2 15 15).2 2 = 3 := by decide +kernel


/-! ### Host interface -/

/-- Queue pair 0 enabled, with one entry in its submission queue. -/
def queued (st : QpState) (ready : Bool) : State := { up with host := { up.host with
  ready := ready, qps := [(0, { Qp.init with en := true, st := st, sqSize := 15, cqSize := 15, sqTail := 1, expected := 1, principal := 1 })] } }
/-- An IDENTIFY entry with result length 512 at address 0x1000, CID 9. -/
def identifyCmd : HostCmd := ⟨0, toBytes 8 1 ++ toBytes 8 9 ++ zeros 8 ++ toBytes 8 0x1000 ++ toBytes 8 512 ++ zeros 88, []⟩

/-- R421: the first failing check decides. -/
theorem test_check_order :
    (queued .unbound true).heldFor 0 identifyCmd.entry = none ∧ (queued .unbound true).canTake 0 = true ∧
    status (after (.identify (cmd 0x7F)) (queued .unbound false)) = some 0x0803 ∧
    status (after (.stageRelease (cmd 0x1A)) (queued .unbound false)) = some 0x0801 ∧
    status (after (.stageRelease (cmd 0x1A)) (queued .unbound true)) = some 0x0601 ∧
    status (after (.stageRelease (cmd 0x1A)) (queued .expired true)) = some 0x0602 ∧
    status (after (.stageRelease (cmd 0x1A)) (queued .active true)) = some 0x0603 := by decide +kernel
theorem test_identify_starts : ((queued .unbound false).starts identifyCmd 1).isSome = true ∧
    (Instr.identify identifyCmd, 1, doIdentify) ∈ hostRows identifyCmd := ⟨by decide +kernel, by simp [hostRows]⟩
theorem test_identify_runs : (after (.identify identifyCmd) (queued .unbound false)).wire.length = 2 ∧
    status (after (.identify identifyCmd) (queued .unbound false)) = some 0 := by decide +kernel
theorem test_fence_waits : let c : HostCmd := ⟨0, toBytes 8 0x101 ++ toBytes 8 9 ++ zeros 8 ++ toBytes 8 0x1000 ++ toBytes 8 512 ++ zeros 88, []⟩
    let s := (queued .unbound true).setQp 0 { (queued .unbound true).qp 0 with cmds := [⟨0, 8, 0, 2, 0, 0, false, 0, none⟩] }
    ({ s with host := { s.host with nextId := 5 } } : State).starts c 1 = none ∧
      ((after (.identify c) { s with host := { s.host with nextId := 5 } }).host.held.map (·.id)) = [5] := by decide +kernel
/-- R411: the size field is the largest index. -/
theorem test_doorbells : let s := queued .unbound true
    s.hostReach = true ∧ ((after (.sqTail 0 15) s).qp 0).sqTail = 15 ∧ ((after (.sqTail 0 16) s).qp 0).qerr = true ∧
      ((after (.sqTail 0 16) s).qp 0).sqTail = 1 ∧ ((after (.sqTail 1 0) s).qp 1).qerr = true ∧ ((after (.cqHead 0 3) s).qp 0).cqHead = 3 ∧
      ((after (.cqHead 0 16) s).qp 0).qerr = true := by decide +kernel
theorem test_qp_enable : let t := after (.qpEnable 5 0x0300_0042_0001_0031) up
    (up.qp 5).st = .disabled ∧ (t.qp 5).st = .unbound ∧ (t.qp 5).sqSize = 3 ∧ (t.qp 5).cqSize = 1 ∧ (t.qp 5).vector = 0x42 ∧ (t.qp 5).share = 3 := by
  decide +kernel
theorem test_qp_disable : let t := after (.qpDisable 0 0) (queued .active true)
    (t.qp 0).st = .closing ∧ (after (.qpEnable 0 1) t).qp 0 = { t.qp 0 with enHeld := true } ∧
      ((after (.qpDisabled 0) t).qp 0).st = .disabled ∧ ((after (.qpDisabled 0) (after (.qpEnable 0 1) t)).qp 0).st = .unbound := by decide +kernel
/-- R415, R419: the last entry of the queue, then phase 0. -/
theorem test_completion_posted : let s0 := held up 0x1A [] []
    let s := s0.setQp 0 { s0.qp 0 with cqTail := 15, cqHead := 1, cqBase := 0x4000 }
    let t := s.finish (0, 7) 0x0501 6 0
    s.canPost (0, 7) ⟨7, 0, 0, 0x1A, 0, 0, false, 0, none⟩ ∧ (t.qp 0).cqTail = 0 ∧ (t.qp 0).phase = false ∧
      t.wire = [.dmaWrite 0x41E0 (toBytes 2 0 ++ toBytes 2 0x0501 ++ zeros 2 ++ toBytes 2 0x8000 ++ toBytes 8 6 ++ zeros 16)] := by
  unfold State.canPost
  decide +kernel
theorem test_completion_waits : let s0 := held up 0x1A [] []
    let s := s0.setQp 0 { s0.qp 0 with cqTail := 15 }
    (s.qp 0).cqFull = true ∧ (s.finish (0, 7) 0).wire = [] ∧ ((s.finish (0, 7) 0).qp 0).cmds.length = 1 ∧
      ((s0.setQp 0 { s0.qp 0 with st := .closing }).finish (0, 7) 0).wire = [] := by decide +kernel
theorem test_side_reads : let s := up.setDie 3 { Die.init with drops := [1, 2, 3, 4], hostCorr := 5, hostCorrOvf := true }
    (after (.dropCountsRead 3) s).wire = [.readReply (toBytes 8 0x0004_0003_0002_0001)] ∧ (after (.dropCountsRead 3) s).die 3 = { s.die 3 with drops := [0, 0, 0, 0] } ∧
      (after (.errDieRead ⟨3, 0, 8⟩) s).wire = [.readReply (toBytes 8 0x1_0000_0005)] ∧ ((after (.errDieRead ⟨3, 0, 8⟩) s).die 3).hostCorrOvf = true := by decide +kernel
theorem test_register_writes : let s : State := { up with host := { up.host with evt := 63 } }
    (after (.registerWrite .bar0 0x1010 8 5) s).host.evt = 0b111010 ∧
      (after (.registerWrite .bar0 0 8 5) s) = s ∧
      ((after (.registerWrite .package (clusterWindow 17 + 0x70_0800) 8 0x31F) (s.setCluster 17 { Cluster.init with flags := 31 })).cluster 17).flags = 0 ∧
      ((after (.registerWrite .package (clusterWindow 17 + 0x70_0800) 8 0x31F) s).cluster 17).rm = 3 := by decide +kernel
theorem test_clip_clear : let s := (up.writeLE 0x1030 8 7).writeLE 0x1028 8 9
    (after (.clipStatisticClear 0x1000) s).readLE 0x1030 8 = 0 ∧ (after (.clipStatisticClear 0x1000) s).readLE 0x1028 8 = 9 := by decide +kernel
/-- R407: no configuration request is answered before the configuration-ready time, which the part sets (Config). -/
theorem test_configuration_retry : up.hostReach = true ∧ up.cfgReady = false ∧
    exec (.configurationRequest false 0 4 0) up = .next (up.send .retryStatus) := by
  have h : up.cfgReady = false := by
    have e : up.power.perstAt = 0x5F5E100 := by decide +kernel
    have n : up.now = 0 := by decide +kernel
    simp only [State.cfgReady, e, n, Bool.and_eq_false_imp, decide_eq_false_iff_not]
    omega
  have r : up.hostReach = true := by decide +kernel
  refine ⟨r, h, ?_⟩
  simp only [exec, execConfigurationRequest, guarded, h, r]
  rfl
theorem test_configuration : (up.cfgWrite 4 0xFFFFFFFF 0xFFFFFFFF).host.bar0 = 0xFE000000 ∧ (up.cfgDword 4) = 4 := by decide +kernel
theorem test_bar0_refused : (after (.bar0UnsupportedRequest false 2 4) up).wire = [.unsupportedRequest] ∧
    (after (.bar0UnsupportedRequest true 2 4) up).host.aer = 1 ∧ (after (.bar0UnsupportedRequest true 2 4) up).wire = [] ∧
    after (.bar0UnsupportedRequest true 0x1FFFFF8 8) up = up := by decide +kernel
theorem test_msix : let s : State := { up with host := { up.host with
      evtMsg := true, evtIen := true, evtVector := 2, msixControl := 2, msix := [(8, 0x1000), (10, 77), (11, 0)] } }
    (after (.msixMessage .moduleEvent) s).wire = [.msix 0x1000 77] ∧ (after (.msixMessage .moduleEvent) s).host.evtMsg = false ∧
      (after (.msixMessage .moduleEvent) { up with host := { up.host with evtMsg := true, evtIen := true } }).host.pba = [0] := by decide +kernel

/-! ### Reads, sessions, resets, pins, administration -/

theorem test_errlog_read : let s := held (up.setDie 3 { Die.init with correctable := 9 }) 0x51 (toBytes 1 3 ++ zeros 63) []
    (s.starts (cmd 0x51) 0x51).isSome = true ∧ status (after (.errlogRead (cmd 0x51)) s) = some 0 := by decide +kernel
theorem test_telemetry_read : let s := held up 0x52 (toBytes 1 2 ++ zeros 63) []
    (s.starts (cmd 0x52) 0x52).isSome = true ∧ status (after (.telemetryRead (cmd 0x52)) s) = some 0x0501 := by decide +kernel
theorem test_attest_starts : ((held up 8 (zeros 64) []).starts (cmd 8) 8).isSome = true := by decide +kernel
theorem test_open_session : let s0 := held up 2 (toBytes 4 1 ++ zeros 60) []
    let s := s0.setQp 0 { s0.qp 0 with st := .unbound }
    (s.starts (cmd 2) 2).isSome = true ∧ ((after (.openSession (cmd 2)) s).qp 0).st = .opening ∧ status (after (.openSession (cmd 2)) s) = some 0 := by
  decide +kernel
theorem test_auth_unknown : let s0 := held up 3 (zeros 64) []
    let s := s0.setQp 0 { s0.qp 0 with st := .opening }
    status (after (.auth (cmd 3)) s0) = some 0x0601 ∧ ((after (.auth (cmd 3)) s0).qp 0).st = .active ∧ (s.starts (cmd 3) 3).isSome = true ∧ ((after (.auth (cmd 3)) s).qp 0).st = .unbound ∧ status (after (.auth (cmd 3)) s) = some 0x0601 := by
  decide +kernel
/-- R452: seven earlier failures within 60 s and one more block the value for 60 s. -/
theorem test_auth_block : let s : State := { up with store := { up.store with authFails := [(4, [0, 0, 0, 0, 0, 0, 0])] } }
    s.authBlocked 4 = false ∧ Table.get 0 (s.authFailed 4).store.authBlock 4 = 60000000000 ∧ (s.authFailed 5).store.authBlock = [] := by decide +kernel
theorem test_close_session : let s0 := held up 4 (zeros 64) []
    let s := s0.setQp 0 { s0.qp 0 with closeTaken := true }
    (s.starts (cmd 4) 4).isSome = true ∧ ((after (.closeSession (cmd 4)) s).qp 0).st = .unbound ∧ status (after (.closeSession (cmd 4)) s) = some 0 := by
  decide +kernel
theorem test_expiry : ((after (.sessionExpiry 0) (queued .active true)).qp 0).st = .expired ∧
    after (.sessionExpiry 0) (queued .unbound true) = queued .unbound true := by decide +kernel
theorem test_dma_failures : let s := queued .unbound true
    s.canTake 0 = true ∧ ((after (.hostDmaReadFailure true identifyCmd) s).qp 0).fetchFails = 1 ∧
      ((after (.hostDmaReadFailure true identifyCmd) (s.setQp 0 { s.qp 0 with fetchFails := 3 })).qp 0).stopped = true := by decide +kernel
theorem test_reset_command : let s := held { up with host := { up.host with lifecycle := 3 } } 5 (zeros 64) []
    (s.starts (cmd 5) 5).isSome = true ∧ (after (.reset (cmd 5)) s).power.phase = .warmWipe ∧ (after (.reset (cmd 5)) s).host.lifecycle = 3 := by
  decide +kernel
theorem test_supply : (after .supplyValidDeassert up).power.phase = .off ∧
    (after .supplyValidAssert (after .supplyValidDeassert up)).power.phase = .coldWipe ∧
    (after .supplyValidAssert (after .supplyValidDeassert up)).power.bootCounter = 1 := by decide +kernel
theorem test_wipe_complete : (after .hardwareWipeComplete State.reset).host.ready = false ∧ (match step (after .hardwareWipeComplete State.reset) with
    | .next t => t.host.ready
    | _ => false) = true := by decide +kernel
theorem test_pins : (after .modEnLow up).power.converters = false ∧ (after (.modEnHigh false) (after .modEnLow up)).power.converters = true ∧
    (after .perstAssert up).power.phase = .warmWipe ∧ (after .perstDeassert (after .perstAssert up)).power.perst = false := by
  decide +kernel
theorem test_function_reset : up.hostReach = true ∧ (∀ n ∈ List.range 4, (up.qp n).en = false) ∧
    (after (.functionReset 0) { up with host := { up.host with bar0 := 0x2000000 } }).host.bar0 = 0 := by decide +kernel


/-! ### Firmware, life cycle and records -/

/-- A signature over `b` under the private key `d`, as a firmware image and a record carry it. -/
def signed (d : Nat) (b : Bytes) : Bytes :=
  let x := Crypto.ecdsaSign d (Crypto.sha384 b) 6
  b ++ toBytes 48 x.1 ++ toBytes 48 x.2
/-- The vendor's private key is 4. -/
def vendor (s : State) : State :=
  let q := Crypto.publicKey 4
  { s with dev := { s.dev with vendorX := q.1, vendorY := q.2, minSvn := [3, 3] } }
/-- A firmware image for target 1 with security version `svn`. -/
def fwImage (svn : Nat) : Bytes :=
  signed 4 (ascii "LGFW" ++ toBytes 4 1 ++ toBytes 4 svn ++ zeros 4 ++ toBytes 8 77 ++ toBytes 4 0 ++ zeros 36)

theorem test_fw_stage : let s := vendor (held up 0x60 (toBytes 1 1 ++ zeros 63) (fwImage 3))
    (s.starts (cmd 0x60) 0x60).isSome = true ∧ status (after (.fwStage (cmd 0x60)) s) = some 0 ∧
      (after (.fwStage (cmd 0x60)) s).fw.staged.map (·.version) = some 77 := by decide +kernel
theorem test_fw_stage_old : status (after (.fwStage (cmd 0x60)) (vendor (held up 0x60 (toBytes 1 1 ++ zeros 63) (fwImage 2)))) = some 0x0603 ∧
    status (after (.fwStage (cmd 0x60)) (vendor (held up 0x60 (zeros 64) (fwImage 3)))) = some 0x0603 ∧
    status (after (.fwStage (cmd 0x60)) (held up 0x60 (toBytes 1 1 ++ zeros 63) (fwImage 3))) = some 0x0603 ∧
    status (after (.fwStage (cmd 0x60)) (vendor (held up 0x60 (toBytes 1 1 ++ zeros 63) ((fwImage 3).take 159)))) = some 0x0104 := by decide +kernel
theorem test_fw_activate : let s := held up 0x61 (zeros 64) []
    let i : Staged := ⟨1, 77, 3, false, []⟩
    let t : State := { s with fw := { s.fw with staged := some i } }
    (s.starts (cmd 0x61) 0x61).isSome = true ∧ status (after (.fwActivate (cmd 0x61)) s) = some 0x0801 ∧
      (after (.fwActivate (cmd 0x61)) t).fw.switching = some (0, 7) ∧
      (after (.fwActivate (cmd 0x61)) (after (.fwActivate (cmd 0x61)) t)).fw.paused = true ∧
      (after (.fwActivate (cmd 0x61)) (after (.fwActivate (cmd 0x61)) (after (.fwActivate (cmd 0x61)) t))).fw.sched = 77 ∧
      status (after (.fwActivate (cmd 0x61)) (after (.fwActivate (cmd 0x61)) (after (.fwActivate (cmd 0x61)) t))) = some 0 ∧
      status (after .fwSwitchTimeout (after (.fwActivate (cmd 0x61)) t)) = some 0x0801 ∧
      after .fwSwitchTimeout (after (.fwActivate (cmd 0x61)) (after (.fwActivate (cmd 0x61)) t)) =
        after (.fwActivate (cmd 0x61)) (after (.fwActivate (cmd 0x61)) t) := by decide +kernel

/-- Principal 1 of a kind, in a life-cycle state. -/
def principal (s : State) (kind now : Nat) : State := { s with
  host := { s.host with lifecycle := now }
  store := { s.store with principals := [(1, ⟨kind, zeros 32, 0, 0, zeros 32⟩)] } }

theorem test_lifecycle_set : let s := principal (held up 0x70 (toBytes 1 2 ++ zeros 63) []) 3 1
    (s.starts (cmd 0x70) 0x70).isSome = true ∧ status (after (.lifecycleSet (cmd 0x70)) s) = some 0 ∧
      (after (.lifecycleSet (cmd 0x70)) s).host.lifeTarget = some 2 ∧
      status (after (.lifecycleSet (cmd 0x70)) (principal s 3 2)) = some 0x0604 ∧
      status (after (.lifecycleSet (cmd 0x70)) (principal (held up 0x70 (toBytes 1 4 ++ zeros 63) []) 1 3)) = some 0 ∧
      status (after (.lifecycleSet (cmd 0x70)) (principal (held up 0x70 (toBytes 1 4 ++ zeros 63) []) 1 2)) = some 0x0604 := by decide +kernel
theorem test_lifecycle_transition : let s := (ready (principal up 1 3)).writeBytes 0x100 [1]
    let t := after .lifecycleTransition { s with host := { s.host with lifeTarget := some 4 } }
    t.host.lifecycle = 4 ∧ t.store.principals = [] ∧ t.mem = [] ∧
      (t.stage 0).st = 0 ∧ t.power.phase = .lifeWipe ∧ (s.stage 0).epoch = 3 ∧
      (after .lifecycleTransition { s with host := { s.host with lifeTarget := some 2 } }).store = s.store := by decide +kernel
theorem test_calibration : let s := principal (held up 0x71 (zeros 64) []) 3 1
    (s.starts (cmd 0x71) 0x71).isSome = true ∧ s.dev.calOk [] = false ∧ status (after (.calibrationWrite (cmd 0x71)) s) = some 0x0104 := by
  decide +kernel

/-! Records signed with private key 5, each with 64 secret bytes 0x5A encrypted to the device key of scalar 9 from the
ephemeral scalar 3; computed outside the model from R443. -/

def recEnrol : Bytes := toBytes 432 0x942d1d4eb5a4c7180bec9174ce67d54be4ab607945f759f01bbb0c45b9f2b129df9ff1c7b13609a68fd8cad922c1830b283c1d7365ce4788f29f8ebf234edffead6fe997fbea5ffa2d58cc9dfa7b1c508b05526f55b9ebb2040f05b48fb6d0e1f0640a248d5a42a5de072832f48b87ce2695d615e5a92be0aedbb7f162d62e618bad7e1664752de7483eb59aefe3bca9a4a96456031883c4042d65af6abe9b841d79292c2127607670319d3e879123eec995f7ca0b0c42837d0bbe9602a9fc998520b41c85115aa5f7684c0edc111eacc24abd6be4b5d298b65f28600a2f1df1077a41d4606ffa1464793c7e5fdc7d98cb9d3910202dcd06bea4f240d3566da6b408bbae5026580d02d7e5c70500c8310000000000000000000000000000000000000000000000000000000000000000000000000000000000000000000000160000000000000000000000000000000000000000000000000000000000000000000000000000000000000000000000150000000000000000000000000000000000000000000000000000000000000009000000000000000000000000000000000000000000000001010100014e45474c
def recReplace : Bytes := toBytes 432 0x468a3933eb19d137086adf6192393e367b455d09c4d2b44cb403e4d773c81d095199f2abc28c52bc5129805abd4a73c6283c1d7365ce4788f29f8ebf234edffead6fe997fbea5ffa2d58cc9dfa7b1c508b05526f55b9ebb2040f05b48fb6d0e1112431dad862242fdb07e4e1cd2d3218ee06c9c2d94bbef9ff6efb0104d276b21033c396bdd77d7f77928e36653364a894ac96fcaa63499b0e61a71af8b217016db69cdedd8dfba6f1dbcb2ebcc869e4c995f7ca0b0c42837d0bbe9602a9fc998520b41c85115aa5f7684c0edc111eacc24abd6be4b5d298b65f28600a2f1df1077a41d4606ffa1464793c7e5fdc7d98cb9d3910202dcd06bea4f240d3566da6b408bbae5026580d02d7e5c70500c8310000000000000000000000000000000000000000000000000000000000000000000000000000000000000000000000160000000000000000000000000000000000000000000000000000000000000000000000000000000000000000000000150000000000000000000000000000000000000000000000000000000000000009000000000000000000000000000000000000000100000001010200014e45474c
def recRemove : Bytes := toBytes 432 0xf4e460232b1f7e7d587a4406950a7ea169749d7474e6f77c7edc9743421965e5ffeb9e5bccfc3717fe694732b0661447283c1d7365ce4788f29f8ebf234edffead6fe997fbea5ffa2d58cc9dfa7b1c508b05526f55b9ebb2040f05b48fb6d0e1cac09b11d681f19eb51d0815eef55a597aa35cd8c7b62e5fb27f81ebb8ed134548a863cba91aa662ffcf59e14ae4b63bdc62be9875e1d8aee7e8465b781b3f52620c2c95d4ed7c1532272ed96243e8b7c995f7ca0b0c42837d0bbe9602a9fc998520b41c85115aa5f7684c0edc111eacc24abd6be4b5d298b65f28600a2f1df1077a41d4606ffa1464793c7e5fdc7d98cb9d3910202dcd06bea4f240d3566da6b408bbae5026580d02d7e5c70500c8310000000000000000000000000000000000000000000000000000000000000000000000000000000000000000000000160000000000000000000000000000000000000000000000000000000000000000000000000000000000000000000000150000000000000000000000000000000000000000000000000000000000000009000000000000000000000000000000000000000000000001010300014e45474c
def recModelKey : Bytes := toBytes 432 0xcf8ca2b5cd999816b6ca7cfc76b22f2edde29c24f9923012398513a91e43fcbd6c3257da6138e62a6fbb142e59d0dcc283c1d7365ce4788f29f8ebf234edffead6fe997fbea5ffa2d58cc9dfa7b1c508b05526f55b9ebb2040f05b48fb6d0e11ebf062b3ea12e035d13c217c397761cdc6f47948cf848f6ef0745ffbc9dfd6bccf271745f1eb6ef7379940a015dcd62857d00eb84fb582f3079ac265e7f937a5c6f099c567d86402116f8d8c9369f01c995f7ca0b0c42837d0bbe9602a9fc998520b41c85115aa5f7684c0edc111eacc24abd6be4b5d298b65f28600a2f1df1077a41d4606ffa1464793c7e5fdc7d98cb9d3910202dcd06bea4f240d3566da6b408bbae5026580d02d7e5c70500c8310000000000000000000000000000000000000000000000000000000000000000000000000000000000000000000000160000000000000000000000000000000000000000000000000000000000000000000000000000000000000000000000150000000000000000000000000000000000000000000000000000000000000009000000000000000000000000000000050000000100000001020400014e45474c
/-- The vendor is known, and so is principal 1 of a kind, both with that key. -/
def recording (kind : Nat) : State :=
  let x := 0x11de24a2c251c777573cac5ea025e467f208e51dbff98fc54f6661cbe56583b037882f4a1ca297e60abcdbc3836d84bc
  let y := 0x8fa696c77440f92d0f5837e90a00e7c5284b447754d5dee88c986533b6901aeb3177686d0ae8fb33184414abe6c1713a
  { up with power := { up.power with timestamp := 150000000 }, dev := { up.dev with vendorX := x, vendorY := y, identityKey := 8 }
            store := { up.store with principals := if kind = 0 then [] else [(1, ⟨kind, zeros 32, x, y, []⟩), (6, ⟨3, zeros 32, 0, 0, []⟩)] } }
theorem test_enrol : let t := after (.enrol recEnrol) (recording 0)
    t.wire = [.recordStatus 0] ∧ Table.find t.store.principals 1 = some ⟨1, List.replicate 32 0x5A, 21, 22, []⟩ := by decide +kernel
theorem test_replace : let t := after (.replace recReplace) (recording 1)
    t.wire = [.recordStatus 0] ∧ Table.find t.store.principals 1 = some ⟨1, List.replicate 32 0x5A, 21, 22, []⟩ := by decide +kernel
theorem test_remove : let t := after (.remove recRemove) (recording 1)
    t.wire = [.recordStatus 0] ∧ t.store.removed = [1] ∧ Table.find t.store.counters 0 = some 9 := by decide +kernel
theorem test_model_key : let t := after (.modelKey recModelKey) (recording 2)
    t.wire = [.recordStatus 0] ∧ Table.find t.store.modelKeys 5 = some (1, List.replicate 32 0x5A) := by decide +kernel
theorem test_record_refusals : let b := ascii "LGEN" ++ toBytes 2 1 ++ [1, 1] ++ zeros 24 ++ zeros 400
    (later.recordForm b) = true ∧ later.recordSecret b = none ∧ (after (.enrol b) later).wire = [.recordStatus 0x0601] ∧
      (after (.enrol ([0, 0, 0, 0, 0, 0, 1] ++ zeros 425)) later).wire = [.recordStatus 0x0104] ∧
      after (.enrol b) up = up ∧ (after (.enrol b) (principal later 1 4)).wire = [.recordStatus 0x0604] := by decide +kernel

/-! ### Stages and models -/

/-- A partial image for stage 0: die 0, model 5, unsigned, five runs, one program that halts (R361 to R376). -/
def image0 : Bytes := toBytes 1024 0x100000000000000000000000000000000000000000000000000000000000000000000000000000000000000000000000000000000000000000000000000000000000000000000000000000000000000000000000000000000000000000000000000000000000000000000000000000000000000000000000000000000000000000000000000000000000000000000000000000000000000000000000000000000000000000000000000000000000000000000000000000000000000000000000000000000000000000000000000000000000000000000000000000000000000000000000000000000000000000000000000000000000000000000000000000000000000000000000000000000000000000000000000000000000000000000000000000000000000000000000000000000000000000000000000000000000000000000000000000000000000000000000000000000000000000000000000000000000000000000000000000000000000000000000000000000000000000000000000000000000000000000000000000000000000000000000000000000000000000000000000000000000000000000000000000000000000000000000000000000000000000000000000000000000000000000000000000000000000000000000000000000000000000000000000000000000000000000000000000000000000000000000000000000000000000000000000000000000000000000000000000000000000000000000000000000000000000000000000000000000000000000000000000000000000000000000000000000000000000000000000000003000100000000000000000000000002700000000400000000000000000000000000000000000000000000000000000000000000000000000000000000000000090001000500000000000000000000000600010004000000000000000000000003000100030000000000000000000000020001000200000000000000000000000100010000000000000000000000000050000000030000000000000000000000000000000000000000000000000000000000000000000000000000000000000000000000000000000000000000000000000000000000000000000000000000000000000000000000000000004000000000140000400000000014000000004000000000000000000000000000000000000000000000000000000000000000000000000000000000000000000000000000100000010000000000000000050000000000000001000000000000000000000080000000010000000000000000000000000000000000000000000000000000000000000000000000000000000000000000000000000000000100000400000100014752474c
/-- The same image with a program that ends in a WAIT of count 0. -/
def imageBad : Bytes := toBytes 1024 0x200000000000000000000000000000000000000000000000000000000000000000000000000000000000000000000000000000000000000000000000000000000000000000000000000000000000000000000000000000000000000000000000000000000000000000000000000000000000000000000000000000000000000000000000000000000000000000000000000000000000000000000000000000000000000000000000000000000000000000000000000000000000000000000000000000000000000000000000000000000000000000000000000000000000000000000000000000000000000000000000000000000000000000000000000000000000000000000000000000000000000000000000000000000000000000000000000000000000000000000000000000000000000000000000000000000000000000000000000000000000000000000000000000000000000000000000000000000000000000000000000000000000000000000000000000000000000000000000000000000000000000000000000000000000000000000000000000000000000000000000000000000000000000000000000000000000000000000000000000000000000000000000000000000000000000000000000000000000000000000000000000000000000000000000000000000000000000000000000000000000000000000000000000000000000000000000000000000000000000000000000000000000000000000000000000000000000000000000000000000000000000000000000000000000000000000000000000000000000000000000000000003000100000000000000000000000002700000000400000000000000000000000000000000000000000000000000000000000000000000000000000000000000090001000500000000000000000000000600010004000000000000000000000003000100030000000000000000000000020001000200000000000000000000000100010000000000000000000000000050000000030000000000000000000000000000000000000000000000000000000000000000000000000000000000000000000000000000000000000000000000000000000000000000000000000000000000000000000000000000004000000000140000400000000014000000004000000000000000000000000000000000000000000000000000000000000000000000000000000000000000000000000000100000010000000000000000050000000000000001000000000000000000000080000000010000000000000000000000000000000000000000000000000000000000000000000000000000000000000000000000000000000100000400000100014752474c
/-- A clear package of model 5 with one 64-byte tensor at 0x40 (R446 to R448). -/
def package0 : Bytes := toBytes 272 0xd9ce228d08954914b6fd1565966125da7777777777777777777777777777777777777777777777777777777777777777777777777777777777777777777777777777777777777777777777777777777700000000000000000000000000000000000000000000000000000000000000000000000000000000000000000000000000000001000000400000000000000040000000000000000000000000000000000000000000000000000000000000000100000000000000000000000000000000000000000000000000000000000000000000000000000000000000000000000000000000000000000000000000000000000000000000000100000000000000c0000000000000000500010001504d474c
def model0 : Model := ⟨64, [], [], [(0x40, 64)]⟩
/-- `ready` with a model. -/
def loaded (s : State) : State := (ready s).setStage 0 { (ready s).stage 0 with model := some model0 }

theorem test_stage_release : let s := held up 0x1A (zeros 64) []
    let q := s.setStage 0 { Stage.init with st := 4, epoch := 9 }
    (q.starts (cmd 0x1A) 0x1A).isSome = true ∧ status (after (.stageRelease (cmd 0x1A)) q) = some 0 ∧
      ((after (.stageRelease (cmd 0x1A)) q).stage 0) = { Stage.init with st := 2, epoch := 9 } ∧
      status (after (.stageRelease (cmd 0x1A)) s) = some 0x0501 ∧
      status (after (.stageRelease (cmd 0x1A)) (s.setStage 0 { Stage.init with st := 3 })) = some 0x0502 ∧
      status (after (.stageRelease (cmd 0x1A)) (s.setStage 0 { Stage.init with st := 4, why := .fence })) = some 0x0502 := by decide +kernel
theorem test_stage_quiesce : let s := (loaded (held up 0x19 (zeros 64) [])).writeBytes (3 * 0x400_0000) [1, 2]
    let t := after (.stageQuiesce (cmd 0x19)) s
    (s.starts (cmd 0x19) 0x19).isSome = true ∧ (s.cmdOf (0, 7)).map (·.opcode) = some 0x19 ∧ s.granules 0 0 3 = [3] ∧ status t = some 0 ∧
      (t.stage 0).st = 4 ∧ (t.stage 0).epoch = 4 ∧ s.readByte (3 * 0x400_0000 + 1) = 2 ∧ t.readByte (3 * 0x400_0000 + 1) = 0 ∧
      (after (.stageQuiesce (cmd 0x19)) (s.setStage 0 { s.stage 0 with st := 3 })).stage 0 = { s.stage 0 with st := 3, waiters := [(0, 7)] } := by
  decide +kernel

/-- MODEL_LOAD of the package into a stage with room for its copy. -/
def atLoad (par : Bytes) : State :=
  let s := ready (held up 0x10 par package0)
  s.setStage 0 { s.stage 0 with cfg := some { cfg0 with runs := ⟨20, 1, 10, 1⟩ :: cfg0.runs } }
theorem test_model_load : let s := atLoad (zeros 24 ++ toBytes 4 5 ++ zeros 36)
    let t := after (.modelLoad (cmd 0x10)) s
    (s.starts (cmd 0x10) 0x10).isSome = true ∧ status t = some 0 ∧ (t.stage 0).model.map (·.weightBytes) = some 64 ∧ t.readByte 0x7F = 0x77 ∧
      status (after (.modelLoad (cmd 0x10)) (atLoad (zeros 64))) = some 0x0104 ∧
      status (after (.modelLoad (cmd 0x10)) (ready (held up 0x10 (zeros 24 ++ toBytes 4 5 ++ zeros 36) package0))) = some 0x0104 ∧
      status (after (.modelLoad (cmd 0x10)) { s with store := { s.store with modelKeys := [(5, 2, [])] } }) = some 0x0505 ∧
      status (after (.modelLoad (cmd 0x10)) (s.setStage 0 { s.stage 0 with st := 1 })) = some 0x0502 := by decide +kernel
theorem test_model_unload : let s := (loaded (held up 0x11 (zeros 64) [])).writeBytes 0x40 [9]
    let q := s.setStage 0 { s.stage 0 with st := 4 }
    let t := after (.modelUnload (cmd 0x11)) q
    (q.starts (cmd 0x11) 0x11).isSome = true ∧ q.kindOf 1 = 0 ∧ status t = some 0 ∧ (t.stage 0).model = none ∧ t.readByte 0x40 = 0 ∧ (t.stage 0).epoch = 3 ∧
      status (after (.modelUnload (cmd 0x11)) (s.setStage 0 { s.stage 0 with st := 3 })) = some 0x0502 := by decide +kernel

theorem test_rig : let s := held up 0x18 (zeros 64) image0
    let t := after (.rigStage (cmd 0x18)) s
    let u := after .rigComplete t
    (s.starts (cmd 0x18) 0x18).isSome = true ∧ (parseImage s.dev.part image0).map (·.stages) = some [0] ∧ (t.stage 0).st = 1 ∧ (t.stage 0).epoch = 1 ∧
      t.rig.map (·.current) = some (some 0) ∧ (u.stage 0).st = 2 ∧ u.rig = none ∧ status u = some 0 ∧ Table.get 0 (u.cluster 0).imem 0 = 1 := by decide +kernel
theorem test_rig_refused : let s := held up 0x18 (zeros 64) imageBad
    let u := after .rigComplete (after (.rigStage (cmd 0x18)) s)
    (u.stage 0).st = 0 ∧ (u.stage 0).cfg = none ∧ status u = some 0x0504 ∧
      status (after (.rigStage (cmd 0x18)) (held up 0x18 (zeros 64) (image0.take 64))) = some 0x0104 ∧
      status (after (.rigStage (cmd 0x18)) (held up 0x18 (zeros 64) (image0.set 4 2))) = some 0x0504 ∧
      status (after (.rigStage (cmd 0x18)) (principal (held up 0x18 (zeros 64) image0) 3 2)) = some 0x0505 := by decide +kernel
/-- The default image of the whole module: `image0` with an empty module section before its stage (R361, R362, R370). -/
def imageFull : Bytes := ((image0.take 64).set 7 1).set 8 0x40 ++ [3, 0xFF] ++ zeros 62 ++ image0.drop 64
theorem test_default_rig : let s : State := { up with power := { up.power with defaultRig := true } }
    let t := after .defaultImageRig { s with dev := { s.dev with flashImage := imageFull } }
    (after .defaultImageRig s).power.defaultRig = false ∧ (after .defaultImageRig s).rig = none ∧
      (after .defaultImageRig { s with dev := { s.dev with flashImage := image0 } }).rig = none ∧
      t.power.defaultRig = false ∧ t.rig.map (·.current) = some (some 0) ∧ (t.stage 0).st = 1 ∧ (t.stage 0).epoch = (s.stage 0).epoch + 1 ∧
      (after (.rigStage (cmd 0x18)) (held s 0x18 (zeros 64) image0)).host.held.length = 1 := by decide +kernel

/-! ### Steps and serving -/

/-- A request with two prompt tokens and MAX_NEW 2, of the command put aside by `held`. -/
def req0 : Request :=
  { id := 0, cmd := (0, 7), principal := 1, handle := noHandle, stage := 0, prompt := [11, 12], maxNew := 2, kvPages := 1, stepTag := 0
    kvFirst := none, placed := 0, emitted := [], cancel := false, canceller := none }
def serving (s : State) (r : Request) : State := { s with requests := [r], nextReq := 1 }
/-- A stage with a model, a request that waits, and programs that start at word 5. -/
def waiting : State := (serving (loaded (held up 0x30 (zeros 64) [])) req0).setCluster 2 { Cluster.init with entries := [5, 6] }

theorem test_step_start : let t := after (.stepStart 0) waiting
    waiting.canStart 0 = true ∧ waiting.fixed 0 = false ∧ (waiting.fill 0 (waiting.capOf 0)).tune = none ∧
      (waiting.fill 0 (waiting.capOf 0)).groups.length = 1 ∧ ((t.stage 0).step.map (·.groups.length)) = some 1 ∧ (t.cluster 2).pc = 5 ∧
      (t.cluster 2).st = .running ∧ (t.requests.map (·.kvFirst)) = [some 0] ∧
      after (.stepStart 0) (serving waiting { req0 with kvPages := 65 }) = serving waiting { req0 with kvPages := 65 } := by decide +kernel
theorem test_cadence : let s := waiting.setStage 0 { waiting.stage 0 with cfg := some { cfg0 with fixedCadence := true } }
    let t := after (.cadencePeriodBoundary 0) s
    s.fixed 0 = true ∧ s.canStart 0 = true ∧ ((t.stage 0).step.map (·.groups.length)) = some 4 ∧ after (.stepStart 0) s = s ∧
      after (.cadencePeriodBoundary 0) waiting = waiting := by decide +kernel
/-- The step of `waiting`, with every sequencer halted. -/
def halted0 (p : Machine.Step) : State :=
  let s := stepping waiting p
  { s with clusters := (List.range 16).map fun k => (k, { Cluster.init with entries := [5], st := .halted }) }
theorem test_step_complete : let s := halted0 step0
    (∀ cl ∈ s.stageClusters 0, (s.cluster cl).st = .halted) ∧ ((after (.stepComplete 0) s).stage 0).step = none ∧
      ((after (.stepComplete 0) s).stage 0).turn = 1 ∧
      after (.stepComplete 0) (s.setCluster 15 { Cluster.init with st := .running }) = s.setCluster 15 { Cluster.init with st := .running } := by
  decide +kernel
theorem test_step_replay : let s := halted0 { step0 with aborted := true, cause := 0x0702, parity := true, attempt := 2 }
    let t := after (.stepReplay 0) s
    ((t.stage 0).step.map (·.attempt)) = some 3 ∧ (t.cluster 3).st = .running ∧ (t.cluster 3).pc = 5 ∧
      after (.stepReplay 0) t = t := by decide +kernel
theorem test_quiesce_timeout : let s := halted0 step0
    ((after (.quiesceTimeout 0) (s.setStage 0 { s.stage 0 with st := 3 })).stage 0).step = none ∧ after (.quiesceTimeout 0) s = s := by decide +kernel

theorem test_serve_submit : let par := toBytes 4 noHandle ++ toBytes 4 0 ++ toBytes 4 2 ++ toBytes 4 5 ++ toBytes 2 1 ++ zeros 46
    let s := loaded (held up 0x30 par (toBytes 4 11 ++ toBytes 4 12))
    let t := after (.serveSubmit (cmd 0x30)) s
    (s.starts (cmd 0x30) 0x30).isSome = true ∧ t.requests.map (·.prompt) = [[11, 12]] ∧ t.requests.map (·.maxNew) = [5] ∧ t.nextReq = 1 ∧
      status (after (.serveSubmit (cmd 0x30)) (ready (held up 0x30 par (zeros 8)))) = some 0x0801 := by decide +kernel
theorem test_serve_cancel : let s := held up 0x31 (zeros 64) []
    let q := s.qp 0
    let two := s.setQp 0 { q with cmds := q.cmds ++ [⟨8, 0, 0, 0x30, 0, 0, false, 0, none⟩] }
    let r := { req0 with cmd := (0, 8) }
    (s.starts (cmd 0x31) 0x31).isSome = true ∧ status (after (.serveCancel (cmd 0x31)) s) = some 0 ∧
      (serving two r).inStep r = false ∧ (after (.serveCancel (cmd 0x31)) (serving two r)).requests = [] ∧
      ((after (.serveCancel (cmd 0x31)) (serving two r)).wire.length) = 2 ∧
      (after (.serveCancel (cmd 0x31)) (stepping (serving two r) { step0 with groups := [{ emptyGroup noHandle with rows := [⟨0, 0, 11, true, false⟩] }] })).requests.map
        (·.canceller) = [some (0, 7)] := by decide +kernel
theorem test_emits : let p : Machine.Step := { step0 with groups := [{ emptyGroup noHandle with rows := [⟨0, 1, 12, true, false⟩] }] }
    let s := (stepping (serving waiting { req0 with placed := 1, kvFirst := some 0 }) p).writeLE (4 * 0x400_0000) 8 0x1234
    p.rowsOf 0 = (1, some 0) ∧ (s.finishRequest 0 p { req0 with placed := 1, kvFirst := some 0 }).requests.map (·.emitted) = [[0x1234]] ∧
      ((s.writeLE (4 * 0x400_0000) 8 0x1_0000_1234).finishRequest 0 p { req0 with placed := 1, kvFirst := some 0 }).requests = [] ∧
      (s.finishRequest 0 p { req0 with placed := 1, kvFirst := some 0, emitted := [9] }).requests = [] := by decide +kernel

/-! ### Costumes -/

/-- The smallest costume image, without parameters, and a package of it for customer 1 under a zero wrapping key; computed
outside the model from R253 and R262. -/
def costumeImage : Bytes := toBytes 64 0x4000000040000000400000004000000000000000000000000000000000000000014943474c
def costumePackage : Bytes := toBytes 176 0x5e5b9201461712be9a6009edf8d88ff7eef5e318192a973fdaa3d65a8d6059ee38288788ed7fa4749812c1effcae1041b200695d85e567787c5f7bf03487d6836d78e9b18b97418d1bc2e5c45295450b0000000000000000000000000b0a09080706050403020100b459822c13f8df6e942c31991ac9f420fda7afbb3ce75a7856cacba11b14ac408bbd155381756d24000000400000000400000005000000010000000000000003000000015043474c
theorem test_package : (principal up 4 1).checkPackage costumePackage = (0, costumeImage) ∧ headStatus costumeImage = 0 := by decide +kernel

/-- A registered costume of customer 1 for model 5 with 512 parameters. -/
def ent0 : DirEntry := { DirEntry.init with
  customer := 1, model := 5, costumeId := 3, pages := 1, st := 2, imageLen := 64, gen := 4, tables := zeros 8 ++ toBytes 4 512 ++ toBytes 4 512 ++ zeros 16 ++ toBytes 4 64 ++ zeros 28 }
/-- Its image in the first wardrobe page of stage 0. -/
def res0 (st : ResState) : Resident :=
  { stage := 0, index := 0, st := st, addr := 2 * 0x400_0000, pages := 1, alt := 0, gen := 4, spec := false, adopted := false, pinned := false
    tuneHeld := false, steps := 0, order := 1, qp := none, principal := 1, running := false, fetching := false, unplaced := false, stored := false, pins := [], line := none, again := none }
def worn (s : State) (l : List Resident) : State := { s with costumes := { s.costumes with dir := [(0, ent0)], fresh := 1, res := l, order := 1 } }
/-- A controller with one usable namespace. -/
def stored (s : State) : State := { s with storage := { s.storage with enumerated := true, controllers := [⟨64, [⟨1, 512, 1000, 0, false⟩]⟩] } }
def nvme0 (why : NvmeFor) : NvmeOp := ⟨5, 0, false, 1, 0, 1, 512, 176, 1, false, false, why, []⟩

theorem test_costume_register : let par := zeros 4 ++ toBytes 4 1 ++ zeros 8 ++ toBytes 4 176 ++ zeros 44
    let s := stored (held up 0x20 par [])
    let t := after (.costumeRegister (cmd 0x20)) s
    (s.starts (cmd 0x20) 0x20).isSome = true ∧ s.nvmeOk 0 1 0 176 = true ∧ (t.entry 0).st = 1 ∧ t.storage.ops.length = 1 ∧
      status (after (.costumeRegister (cmd 0x20)) (held up 0x20 par [])) = some 0x0104 ∧
      status (after (.costumeRegister (cmd 0x20)) { s with costumes := { s.costumes with fresh := 16777216 } }) = some 0x0802 := by decide +kernel
theorem test_costume_registered : let s := principal (held up 0x20 (zeros 64) []) 4 1
    let t := { s with storage := { (stored s).storage with ops := [nvme0 (.register 0 7 0)] }
                      costumes := { s.costumes with dir := [(0, { DirEntry.init with st := 1, customer := 1 })], fresh := 1 } }
    let u := after (.nvmeCompletion 5 0 costumePackage) t
    (t.nvmeOp 5).isSome = true ∧ status u = some 0 ∧ (u.entry 0).st = 2 ∧ (u.entry 0).gen = 4 ∧ (u.entry 0).customer = 1 := by decide +kernel
theorem test_costume_rejected : let s := held up 0x20 (zeros 64) []
    let t := { s with storage := { (stored s).storage with ops := [{ nvme0 (.register 0 7 0) with second := true }] }
                      costumes := { s.costumes with dir := [(0, { DirEntry.init with st := 1, customer := 1 })], fresh := 1 } }
    status (after (.nvmeCompletion 5 0 costumePackage) t) = some 0x0304 ∧ status (after (.nvmeCompletion 5 0x81 []) t) = some 0x0702 ∧
      ((after (.nvmeTimeout 5) t).entry 0).st = 0 ∧ status (after (.nvmeCompletion 5 0 (zeros 176)) t) = some 0x0605 := by decide +kernel
theorem test_costume_prefetch : let s := stored (worn (loaded (held up 0x22 (zeros 4 ++ [1] ++ zeros 59) [])) [])
    let t := after (.costumePrefetch (cmd 0x22)) s
    (s.starts (cmd 0x22) 0x22).isSome = true ∧ status t = some 0 ∧ (t.resident 0 0).map (·.st) = some .loadingSpec ∧
      status (after (.costumePrefetch (cmd 0x22)) (worn (loaded (held up 0x22 ([1] ++ zeros 63) [])) [])) = some 0x0302 := by decide +kernel
theorem test_costume_pin : let s := worn (loaded (held up 0x23 (zeros 64) []))
    let t := after (.costumePin (cmd 0x23)) (s [res0 .resident])
    ((s []).starts (cmd 0x23) 0x23).isSome = true ∧ (s [res0 .resident]).shareOk 0 1 = true ∧ status t = some 0 ∧
      (t.resident 0 0).map (·.pinned) = some true ∧
      ((after (.costumePin (cmd 0x23)) (s [res0 .loadingSpec])).resident 0 0).map (·.pins) = some [(0, 7)] ∧
      (stored (s [])).findRun 0 1 = some (2 * 0x400_0000) ∧
      ((after (.costumePin (cmd 0x23)) (stored (s []))).resident 0 0).map (·.st) = some .loadingDemand := by decide +kernel
theorem test_costume_audit : let s := worn (held up 0x24 (zeros 4 ++ toBytes 4 4 ++ zeros 56) []) []
    let t := s.audit 0 7 0 4 9 (some 0, 1)
    (t.starts (cmd 0x24) 0x24).isSome = true ∧ t.resolve 1 0 none = 0 ∧ ((t.auditWalk 0 4 (t.entry 0).auditHead (2 ^ 64)).1.map (·.count)) = [9] ∧
      status (after (.costumeAudit (cmd 0x24)) { s with costumes := { s.costumes with dir := [(0, { ent0 with poisoned := true })] } }) = some 0x0702 := by
  decide +kernel
theorem test_costume_retire : let s := worn (loaded (held up 0x21 (zeros 64) [])) [res0 .loadingSpec]
    let t := after (.costumeRetire (cmd 0x21)) s
    (s.starts (cmd 0x21) 0x21).isSome = true ∧ (t.entry 0).st = 3 ∧ (t.entry 0).retire = some (0, 7) ∧ (t.resident 0 0).map (·.st) = some .scrubbing := by
  decide +kernel

/-- A request for the costume waits in stage 0. -/
def wanted (l : List Resident) : State := stored (worn (serving (loaded (held up 0x30 (zeros 64) [])) { req0 with handle := 0 }) l)
theorem test_costume_load : (wanted []).demanded 0 0 = true ∧ (wanted []).handleOf 0 = 0 ∧
    ((after (.costumeLoad 0 0) (wanted [])).resident 0 0).map (·.addr) = some (2 * 0x400_0000) ∧
    ((after (.costumeLoad 0 0) (wanted [res0 .loadingSpec])).resident 0 0).map (·.adopted) = some true ∧
    after (.costumeLoad 0 0) (wanted [res0 .scrubbing]) = wanted [res0 .scrubbing] := by decide +kernel
theorem test_costume_load_complete : let s := principal (wanted [{ res0 .loadingDemand with running := true }]) 4 1
    let c : State := { s with costumes := { s.costumes with cache := [⟨0, 0, costumePackage⟩] } }
    ((after (.costumeLoadComplete 0 0) c).resident 0 0).map (·.st) = some .resident ∧
      (after (.costumeLoadComplete 0 0) (wanted [res0 .resident])) = wanted [res0 .resident] := by decide +kernel
theorem test_costume_load_fails : let s := worn (loaded (held up 0x30 (zeros 64) [])) [{ res0 .loadingDemand with running := true, stored := true }]
    let c : State := { s with costumes := { s.costumes with cache := [⟨0, 0, zeros 176⟩] } }
    (c.checkPackage (zeros 176)).1 = 0x0304 ∧ ((after (.costumeLoadComplete 0 0) c).resident 0 0).map (·.st) = some .scrubbing := by decide +kernel
theorem test_page_scrub : let s := (worn (ready up) [res0 .scrubbing]).writeBytes (2 * 0x400_0000) [1]
    s.leasedAt 0 (2 * 0x400_0000) = false ∧ (after (.pageScrubComplete 0 0) s).resident 0 0 = none ∧
      (after (.pageScrubComplete 0 0) s).readByte (2 * 0x400_0000) = 0 := by decide +kernel
theorem test_relocation : let s := (worn (ready up) [res0 .resident]).placeImage (2 * 0x400_0000) costumeImage
    let t := after (.costumeRelocation 0 0 9) s
    (s.wardrobe 0)[9]? = some (2 * 0x400_0000 + 9 * 0x10_0000) ∧ s.runFree 0 (2 * 0x400_0000 + 9 * 0x10_0000) 1 = true ∧
      (t.resident 0 0).map (·.addr) = some (2 * 0x400_0000 + 9 * 0x10_0000) ∧ s.readByte (2 * 0x400_0000) = 0x4C ∧ t.readByte (2 * 0x400_0000) = 0 ∧
      t.readByte (2 * 0x400_0000 + 9 * 0x10_0000) = 0x4C := by decide +kernel
theorem test_cache_eviction : let s := worn up [{ res0 .loadingDemand with index := 3, running := true }]
    let c : State := { s with costumes := { s.costumes with cache := [⟨3, 0, [1]⟩, ⟨0, 0, [2]⟩] } }
    c.cacheVictim = some ⟨0, 0, [2]⟩ ∧ (after .cacheEviction c).cached 0 = none ∧ ((after .cacheEviction c).cached 3).isSome = true := by decide +kernel
theorem test_retire_complete : let s := worn (held up 0x21 (zeros 64) []) []
    let t := { s with costumes := { s.costumes with dir := [(0, { ent0 with st := 3, retire := some (0, 7), hgen := 0xFE })] } }
    t.handleOf 0 = 0xFE00_0000 ∧ ((after (.retireComplete 0xFE00_0000) t).entry 0).st = 0 ∧ ((after (.retireComplete 0xFE00_0000) t).entry 0).hgen = 0 ∧
      (after (.retireComplete 0xFE00_0000) t).costumes.freed = [0] ∧ status (after (.retireComplete 0xFE00_0000) t) = some 0 := by decide +kernel

/-! ### Tuning -/

/-- A checkpoint package of customer 1: seed 77, step 6, 5 exchanges, scale 13, without parameters; computed outside the
model from R316. -/
def checkpointPackage : Bytes := toBytes 304 0x30e88903c77697e7e5f330d6700aa3bbf3b7c571c7c0df65bc73ab8b22cace9dbb8680dffadd63a77eccffa9159e97d3eee9d2ba77e85fcc4a93113535e3f436c24cda3da148e10853cbd7b58f4315f70e6ee682cd57ff4d9a25c5e3ab6267ba7f217548b23e1c9e1ac841a4e659f8cb8db9f078cc9efdfd6853637662c98a38e80e8fef6eaa541c6126d1d37ac63cf0eef5e3d8192a97bfdaa3d65a8d6059ee38288789ed7ea3a49810c1a2fcae1005b200691d85e5673d7c5f7bf03487d6856d78e9b18b9741c01bc2e5c45095450b0000000000000000000000000b0a09080706050403020100b459822c13f8df6e942c31991ac9f420fda7afbb3ce75a7856cacba11b14ac408bbd155381756d24000000c0000000040000000500000001000000000000000300000001504b474c
/-- An active job on the costume of `worn`, with one shard over compute die 0 and no moments. -/
def shard0 : Shard := ⟨0, 0, 0x3F800000, 0x3F800000, 0, 2, 4, List.replicate 512 0, [], [], []⟩
def job0 : Job :=
  { handle := 0, customer := 1, stage := 0, number := some 0, order := 1, seed := 77, thin := 2, grow := 2000, sigma := 16, clean := 0, n := 0
    exchanges := 0, windows := 0, updates := 0, skipped := 0, follow := [], opt := zeros 64, paused := false, feeds := [], passes := [], passIdx := 0
    running := false, due := [], landed := [], losses := [], samples := 0, closing := none, broken := false, verdict := 0, gbuf := 0x1900_0040, gen := 4, wKey := []
    shards := [shard0], window := .open, wsteps := 0, late := [], updating := false, left := [], unwritten := [], ckReq := none, ckDue := false, ckStaged := true
    ckStored := true, ckSlot := none, ring := none }
def tuned (s : State) (j : Job) : State := { worn (loaded s) [{ res0 .resident with tuneHeld := true, alt := 2 * 0x400_0000 + 0x10_0000 }] with jobs := [(0, j)] }

theorem test_tune_open : let s := worn (loaded (held up 0x38 (zeros 5 ++ [2, 16] ++ zeros 9 ++ toBytes 8 77 ++ zeros 40) (zeros 64))) [res0 .resident]
    let o : State := { s with costumes := { s.costumes with dir := [(0, { ent0 with tables := zeros 64 })] } }
    let t := after (.tuneOpen (cmd 0x38)) o
    (o.starts (cmd 0x38) 0x38).isSome = true ∧ (o.currentImage 0 0).isSome = true ∧ (t.job 0).map (·.seed) = some 77 ∧ (t.job 0).map (·.thin) = some 2 ∧
      (t.entry 0).tuning = true ∧ status t = some 0 ∧
      status (after (.tuneOpen (cmd 0x38)) (worn (loaded (held up 0x38 (zeros 64) (List.replicate 64 1))) [])) = some 0x0104 := by decide +kernel
theorem test_tune_open_restore : let s := worn (loaded (held up 0x38 (zeros 7 ++ [1] ++ zeros 56) (zeros 64))) []
    let o : State := { s with costumes := { s.costumes with dir := [(0, { ent0 with tables := zeros 64 })] } }
    status (after (.tuneOpen (cmd 0x38)) o) = some 0x0304 := by decide +kernel
theorem test_tune_feed : let d := toBytes 4 2 ++ toBytes 4 5 ++ toBytes 4 (6 + 2 ^ 31)
    let s := tuned (held up 0x39 (zeros 4 ++ toBytes 4 2 ++ zeros 56) d)
    ((s job0).starts (cmd 0x39) 0x39).isSome = true ∧ parseFeed d (d.length / 4 + 1) 0 [] = some [[5, 6 + 2 ^ 31]] ∧
      ((after (.tuneFeed (cmd 0x39)) (s job0)).job 0).map (·.feeds) = some [⟨(0, 7), 2, [[5, 6 + 2 ^ 31]]⟩] ∧
      status (after (.tuneFeed (cmd 0x39)) (s { job0 with paused := true })) = some 0x0404 ∧
      status (after (.tuneFeed (cmd 0x39)) (tuned (held up 0x39 (zeros 64) d) job0)) = some 0x0104 ∧
      status (after (.tuneFeed (cmd 0x39)) { s job0 with jobs := [] }) = some 0x0302 := by decide +kernel
theorem test_tune_checkpoint_waits : let s := tuned (held up 0x3A (zeros 64) [])
    ((s job0).starts (cmd 0x3A) 0x3A).isSome = true ∧
      ((after (.tuneCheckpoint (cmd 0x3A)) (s { job0 with wsteps := 1 })).job 0).map (·.ckReq) = some (some ⟨(0, 7), false, 0, 0, 0⟩) ∧
      (after (.tuneCheckpoint (cmd 0x3A)) (s { job0 with ckReq := some ⟨(0, 7), false, 0, 0, 0⟩ })).host.held.length = 1 ∧
      status (after (.tuneCheckpoint (cmd 0x3A)) (tuned (held up 0x3A (zeros 4 ++ [1] ++ zeros 59) []) job0)) = some 0x0104 := by decide +kernel
theorem test_tune_close : let s := tuned (held up 0x3B (zeros 64) [])
    ((s job0).starts (cmd 0x3B) 0x3B).isSome = true ∧ (after (.tuneClose (cmd 0x3B)) (s job0)).job 0 = none ∧ status (after (.tuneClose (cmd 0x3B)) (s job0)) = some 0 ∧
      ((after (.tuneClose (cmd 0x3B)) (s { job0 with running := true })).job 0).map (·.closing) = some (some (0, some (0, 7))) ∧
      status (after (.tuneClose (cmd 0x3B)) (s { job0 with closing := some (0, none) })) = some 0x0302 := by decide +kernel

theorem test_pass_complete : let s := tuned up
    let p := [[1, 2]]
    ((after (.tuningPassComplete 0) (s { job0 with running := true, passes := [p, p] })).job 0).map (fun j => (j.passIdx, j.n, j.running)) = some (1, 0, false) ∧
    ((after (.tuningPassComplete 0) (s { job0 with running := true, passes := [p] })).job 0).map (fun j => (j.n, j.wsteps, j.window)) = some (1, 1, .open) ∧
    ((after (.tuningPassComplete 0) (s { job0 with running := true, passes := [p], wsteps := 1 })).job 0).map (·.window) = some .closing ∧
    after (.tuningPassComplete 0) (s job0) = s job0 := by decide +kernel
theorem test_window_end : let s := tuned up { job0 with window := .closing, wsteps := 2, grow := 3 }
    ((after (.windowEnd 0) s).job 0).map (fun j => (j.updating, j.left, j.unwritten)) = some (true, [0], [0, 1]) ∧
      after (.windowEnd 0) (tuned up job0) = tuned up job0 := by decide +kernel
theorem test_rotation : let s : State := { tuned up { job0 with windows := 8 } with jobs := [(0, { job0 with windows := 8 }), (1, { job0 with number := none, order := 1 })] }
    ((after (.jobRotation 0) s).job 0).map (fun j => (j.windows, j.order)) = some (0, 2) ∧ ((after (.jobRotation 0) s).job 1).map (·.number) = some (some 0) ∧
      after (.jobRotation 0) (tuned up { job0 with windows := 8 }) = tuned up { job0 with windows := 8 } := by decide +kernel
theorem test_rollback_pauses : ((after (.tuningRollback 0) (tuned up { job0 with broken := true, running := true })).job 0).map (fun j => (j.paused, j.broken)) =
      some (true, false) ∧ after (.tuningRollback 0) (tuned up job0) = tuned up job0 := by decide +kernel
theorem test_shard_update : let s := tuned up { job0 with window := .closing, updating := true, left := [0], unwritten := [0, 1] }
    s.altFree 0 { job0 with updating := true } = true ∧
      ((after (.shardUpdate 0 0) s).job 0).map (fun j => (j.left, j.unwritten, j.updating)) = some ([], [], true) := by decide +kernel
theorem test_publication : let t := after (.publicationSwitch 0) (tuned up { job0 with window := .closing, updating := true })
    (t.job 0).map (fun j => (j.updating, j.updates, j.gen)) = some (false, 1, 5) ∧
      (t.resident 0 0).map (fun r => (r.addr, r.alt)) = some (2 * 0x400_0000 + 0x10_0000, 2 * 0x400_0000) := by decide +kernel
/-- R315: with no parameters the checkpoint package is 0x60 + 0xC0 + 16 bytes. -/
theorem test_tune_checkpoint : let s := tuned (principal (held up 0x3A (zeros 64) []) 4 1) { job0 with shards := [] }
    let e : DirEntry := { ent0 with tables := zeros 64, wrapped := slice costumePackage 0x20 40 }
    let u : State := { s with modRuns := [⟨40, 1, 13, 1⟩], costumes := { s.costumes with dir := [(0, e)] } }
    let t := u.placeImage (2 * 0x400_0000) costumeImage
    status (after (.tuneCheckpoint (cmd 0x3A)) t) = some 0 ∧
      ((Table.find (after (.tuneCheckpoint (cmd 0x3A)) t).costumes.ckpts 0).map (·.length)) = some 304 := by decide +kernel
theorem test_rollback : let s := tuned (principal up 4 1) { job0 with shards := [], broken := true, running := true }
    let t : State := { s with costumes := { s.costumes with ckpts := [(0, checkpointPackage)] } }
    ((after (.tuningRollback 0) t).job 0).map (fun j => (j.seed, j.n, j.exchanges, j.sigma, j.broken)) = some (77, 6, 5, 13, false) := by decide +kernel

/-! ### The Carousel, frames and ports -/

/-- An OPEN frame of ring 5 from slot 1 and a PIPE frame of peer stage 4 to stage 0, epoch 3, 64 bytes 0x33 at granule 7; computed
outside the model from R330, R331 and R456. -/
def openFrame0 : FrameIn := ⟨0, toBytes 320 0x430ae3f4e18f39f60051717e7f0f042a41f3e5d09998c17dcdc8200c42571a780ceae6182733cdf399671c60a8c837409a852a3dd1bb39d5bd43ccd25a462acf4e001404fdfb75f28b5f433ab7e2393df0a9fe65943a71d869a77a096debec945397d692438f37424f07d6e691ac446f5efe077ff6a701374d6904e4f9c1f90ced8ddaecb059ef70875dbd044168d98a32ecea2e7810ba7e57c9b9788135bffbda7301942708403d856c5ad043cbb7dab05fa3e22b46e0c0bb5e84a9043492839b990b8410a3a3aa7e1dcf4c64b15aaafd65d9053a5931ff4c14b3cf2b67d419b025c1d4ee5c1e29822a54ed0e32841d1d8e1a29a75410f016b89a0523ed9b75aa100e09ace0b5f4c82a5e0b93e86864000000000000000000000000000000000008000000000000000000000000000000000000000000050000000000000010⟩
def pipeFrame0 : FrameIn := ⟨0, toBytes 320 0x2fa2df2d369e612bff5b5c63716d21e8d09c7138e59fe6bfcc23a89d177efe258c1a099b97822afb48a417a4aaed609c8f2e58c94a569bd163d5aaff009cbdb4a433ce229f1b9985e7fe7dd53303f83c0000000000000000000000000000000000200000004000001c0000000000000300000000000000000000000000000001⟩
/-- Membership of ring 5 in slot 0 of 2, with slot 1 as predecessor and an exchange that has opened. -/
def ring0 : Ring := { Ring.init ⟨0, 7, 0, 0, 0x40, 1, zeros 64, [], 0, 0⟩ (zeros 32) (zeros 32) with
  id := 5, members := 2, slot := 0, rings := 1, joining := none, opened := true, pred := some (1, List.replicate 32 2) }
def member (j : Job) (r : Ring) : State := tuned up { j with ring := some r }
/-- A frame of type `ty` from slot 1 in the clear, for the current exchange. -/
def clear (ty block samples : Nat) (body : Bytes) : Bytes :=
  toBytes 8 ty ++ toBytes 8 5 ++ toBytes 4 0 ++ toBytes 4 block ++ toBytes 4 samples ++ toBytes 4 (2 ^ 19) ++ zeros 32 ++ padTo body 256
def ringOf (s : State) : Option Ring := (s.job 0).bind (·.ring)

theorem test_block_final : let s := member { job0 with window := .closing } { ring0 with present := some true }
    s.foldsFirst 0 0 = false ∧ s.jobBlocks 0 = 2 ∧ (ringOf (after (.blockFinal 0 0) s)).map (·.final) = some [0] ∧
      after (.blockFinal 0 2) s = s ∧ after (.blockFinal 1 0) s = s := by decide +kernel
theorem test_deadline : let s := member job0 { ring0 with pred := none }
    (ringOf (after (.deadlineExpiry 0) s)).map (fun r => (r.late, r.present)) = some (true, some false) ∧
      after (.deadlineExpiry 0) (member job0 { ring0 with opened := false }) = member job0 { ring0 with opened := false } := by decide +kernel
theorem test_hold_expiry : let s := member job0 { ring0 with present := some false, pred := none }
    s.ownerOf 0 ring0 0 = 0 ∧ s.ownerOf 0 ring0 1 = 1 ∧
      ((ringOf (after (.holdExpiry 0 0) s)).bind fun r => (Table.find r.done 0).map fun d => (d.samples, d.words.length)) = some (0, 256) ∧
      after (.holdExpiry 0 1) s = s := by decide +kernel
theorem test_verdict_timeout : let r : Ring := { ring0 with present := some false, done := [(0, ⟨[], 0⟩)] }
    (member job0 r).verdictReady 0 { job0 with ring := some r } r = true ∧
      (ringOf (after (.verdictTimeout 0) (member job0 r))).map (fun r => (r.attempt, r.lap1Sent)) = some (1, true) := by decide +kernel
theorem test_param_timeout : let s := member { job0 with updating := true, unwritten := [1] } { ring0 with decided := some (true, 16, 0, 0) }
    ((after (.paramTimeout 0 1) s).job 0).map (·.unwritten) = some [] ∧ (ringOf (after (.paramTimeout 0 1) s)).map (·.stat.frozen) = some 1 ∧
      after (.paramTimeout 0 0) s = s := by decide +kernel
theorem test_join_timeout : let s : State := { held up 0x40 (zeros 64) [] with jobs := [(0, { job0 with ring := some { ring0 with joining := some (0, 7) } })] }
    status (after (.joinTimeout 0) s) = some 0x0402 ∧ ringOf (after (.joinTimeout 0) s) = none ∧ after (.joinTimeout 0) (member job0 ring0) = member job0 ring0 := by
  decide +kernel
theorem test_carousel_join : let s := tuned (held up 0x40 (zeros 64) (zeros 40))
    ((s job0).starts (cmd 0x40) 0x40).isSome = true ∧ status (after (.carouselJoin (cmd 0x40)) (s job0)) = some 0x0304 ∧
      status (after (.carouselJoin (cmd 0x40)) (s { job0 with wsteps := 1 })) = some 0x0104 ∧
      status (after (.carouselJoin (cmd 0x40)) (tuned (held up 0x40 (zeros 20 ++ [1] ++ zeros 43) (zeros 40)) job0)) = some 0x0801 := by decide +kernel
/-- A key wrapped under the zero wrapping key: the joiner holds it and has sent its FORM. -/
theorem test_carousel_joins : let s := tuned (principal (held up 0x40 (zeros 8 ++ toBytes 8 5 ++ toBytes 2 2 ++ zeros 46) (slice costumePackage 0x20 40)) 4 1) job0
    (ringOf (after (.carouselJoin (cmd 0x40)) s)).map (fun r => (r.id, r.members, r.formed)) = some (5, 2, true) ∧
      (ringOf (after (.carouselJoin (cmd 0x40)) s)).map (·.joining) = some (some (0, 7)) := by
  decide +kernel
theorem test_carousel_leave : let s := tuned (held up 0x41 (zeros 64) [])
    ((s job0).starts (cmd 0x41) 0x41).isSome = true ∧ status (after (.carouselLeave (cmd 0x41)) (s job0)) = some 0x0104 ∧
      ringOf (after (.carouselLeave (cmd 0x41)) (s { job0 with ring := some { ring0 with opened := false } })) = none ∧
      (ringOf (after (.carouselLeave (cmd 0x41)) (s { job0 with ring := some ring0 }))).map (·.leave) = some true := by decide +kernel

theorem test_ring_deals : let s := member job0
    (ringOf ((s { ring0 with opened := false }).ringDeal 0 (clear 0x10 0 0 []))).map (·.opened) = some true ∧
      (ringOf ((s { ring0 with pred2 := some (9, []) }).ringDeal 0 (clear 0x13 0 0 []))).map (·.pred) = some (some (9, [])) ∧
      (ringOf ((s { ring0 with present := some false }).ringDeal 0 (clear 0x18 0 7 []))).map (fun r => r.done.map fun d => d.2.samples) = some [7] ∧
      (ringOf ((s { ring0 with present := some false }).ringDeal 0 (clear 0x18 1 7 []))).map (·.sent) = some [1] ∧
      (ringOf ((s { ring0 with sent := [1] }).ringDeal 0 (clear 0x18 1 7 []))).map (·.stat.late) = some 1 := by decide +kernel
theorem test_ring_verdict : let t := (member { job0 with window := .closing } ring0).ringDeal 0 (clear 0x14 1 6 (toBytes 4 15 ++ toBytes 2 1))
    (t.job 0).map (fun j => (j.sigma, j.clean, j.updating)) = some (15, 1, true) := by decide +kernel
theorem test_ring_param : let j := { job0 with updating := true, unwritten := [1] }
    let t := (member j { ring0 with decided := some (true, 16, 0, 0) }).ringDeal 0 (clear 0x19 1 0 [])
    (member j ring0).twoHalves 0 j 1 = false ∧ (t.job 0).map (·.unwritten) = some [] ∧ (ringOf t).map (·.forwarded) = some [(1, false)] := by decide +kernel
theorem test_ring_form : let s : State := { held up 0x40 (zeros 64) [] with jobs := [(0, { job0 with ring := some { ring0 with joining := some (0, 7) } })] }
    (ringOf (s.ringDeal 0 (clear 0x11 0 0 []))).map (fun r => (r.joining, r.pred)) = some (none, some (1, zeros 32)) ∧
      status (s.ringDeal 0 (clear 0x12 0 0 [])) = some 0x0104 := by decide +kernel

/-- Port 0 is up and waits for sequence number 0. -/
def linked (s : State) : State := s.setPort 0 { Port.init with trained := true, up := true }
theorem test_open_frame : let s := linked (member job0 { ring0 with opened := false })
    (ring0.decrypt openFrame0.bytes).isSome = true ∧ (s.port 0).inOrder openFrame0.bytes = true ∧
      (ringOf (after (.openFrame openFrame0) s)).map (·.opened) = some true := by decide +kernel
theorem test_bad_tag : let b : FrameIn := ⟨0, toBytes 8 0x10 ++ toBytes 8 5 ++ zeros 304⟩
    let s := linked (member job0 { ring0 with opened := false })
    ring0.decrypt b.bytes = none ∧ (ringOf (after (.openFrame b) s)).map (·.stat.tagFails) = some 1 ∧ ((after (.openFrame b) s).port 0).rxSeq = 0 := by
  decide +kernel
theorem test_frame_order : let s := linked up
    ((after (.idle ⟨0, zeros 320⟩) s).port 0).rxSeq = 0 ∧ ((after (.idle ⟨0, zeros 2 ++ [1] ++ zeros 317⟩) s).port 0).rxSeq = 0xFFFF ∧
      ((after (.reservedFrame ⟨0, [2] ++ zeros 319⟩) s).port 0).rxSeq = 0 := by decide +kernel
/-- An IN route of stage 0 at port 0 from peer 4 into granule 7. -/
def route0 : InRoute := ⟨0, 4, 7, 1, 0, 0, 0, 0, 0, [false, false, false, false], none, [], 0⟩
theorem test_pipe_frame : let s := linked (loaded up)
    let t := after (.pipe pipeFrame0) (s.setStage 0 { s.stage 0 with ins := [route0], model := some { model0 with segSeed := zeros 32 } })
    t.readByte (7 * 0x400_0000) = 0x33 ∧ t.readByte (7 * 0x400_0000 + 63) = 0x33 ∧ t.readByte (7 * 0x400_0000 + 64) = 0 ∧
      (t.stage 0).ins.map (fun r => (r.written, r.epoch)) = [(1, some 3)] := by decide +kernel
theorem test_ports : let s := linked up
    ((after (.portDown 0) (s.setPort 0 { s.port 0 with fails := 16 })).port 0).up = false ∧ after (.portDown 0) (s.setPort 0 { s.port 0 with fails := 15 }) =
        s.setPort 0 { s.port 0 with fails := 15 } ∧ ((after (.receiverLockChange 0 false) s).port 0).lockLost = true ∧
      ((after (.portTrained ⟨1, false⟩) s).port 1).up = true ∧ after (.portTrained ⟨0, false⟩) s = s ∧
      ((after (.frameParityFailure 0) s).die 88).correctable = 1 ∧ after (.frameParityFailure 1) s = s := by decide +kernel

/-! ### Parity, scrubbing, fences -/

/-- `loaded` with the package of stage 0 from `package0`, whose line at 0x40 is 0x77 throughout. -/
def weighed : State := (ready up).setStage 0 { (ready up).stage 0 with model := some { model0 with package := package0 } }
theorem test_refetch : let s := weighed.writeBytes 0x40 [1]
    s.stageOfLine 0x40 = some 0 ∧ s.lineAt 0 0x40 = some .weights ∧ (after (.refetch 0x40) s).readByte 0x40 = 0x77 ∧
      ((after (.refetch 0x40) s).die 64).correctable = 1 ∧ after (.refetch 0x400_0000) s = s := by decide +kernel
theorem test_refetch_fails : let s := loaded up
    let t := after (.refetch 0x40) s
    s.weightsLine 0 0x40 = none ∧ t.poison = [0x40] ∧ (t.stage 0).model = none ∧ (t.die 64).unrecovered = 1 ∧
      s.lineAt 0 0x1400_0080 = some .tables ∧ ((after (.refetch 0x1400_0080) s).die (64 + 5 / 16)).correctable = 1 := by decide +kernel
theorem test_instruction_replay : let e := (run 0).entryFor iss 0x28 false 0
    let s := (run 0).setUnit 0 7 [e]
    s.working 0 7 = some e ∧ ((after (.instructionReplay 0 7 true) s).die 0).correctable = 1 ∧
      ((after (.instructionReplay 0 7 false) s).unitQueue 0 7).map (·.status) = [0x0702] ∧ after (.instructionReplay 0 6 true) s = s := by decide +kernel
theorem test_scrub_reads : let s := (ready up).setStage 0 { (ready up).stage 0 with scrub := some ⟨(0, 7), 0, 0, 0, 0, 0, [], []⟩ }
    let a := 3 * 0x400_0000
    s.lineAt 0 a = some .mutable ∧ s.slotBusy .mutable = false ∧
      ((after (.backgroundScrubRead 0 a .good) s).stage 0).scrub.map (·.pos) = some [⟨64, a + 64, []⟩] ∧
      after (.backgroundScrubRead 0 a .transient) (after (.backgroundScrubRead 0 a .good) s) = after (.backgroundScrubRead 0 a .good) s ∧
      ((after (.backgroundScrubRead 0 a .transient) s).stage 0).scrub.map (·.reread) = some 1 ∧
      (after (.backgroundScrubRead 0 a .persistent) s).poison = [a] ∧ after (.backgroundScrubRead 0 a .persistent) (ready up) = ready up := by decide +kernel
theorem test_scrub_pass : let s := loaded (held up 0x50 (zeros 64) [])
    let t := after (.scrubPass (cmd 0x50)) s
    (s.starts (cmd 0x50) 0x50).isSome = true ∧ ((t.stage 0).scrub.map (·.cmd)) = some (0, 7) ∧ (t.starts (cmd 0x50) 0x50).isSome = true ∧
      status (after (.scrubPass (cmd 0x50)) t) = some 0 ∧ ((after (.scrubPass (cmd 0x50)) t).stage 0).scrub = none ∧
      status (after (.scrubPass (cmd 0x50)) (held up 0x50 (zeros 64) [])) = some 0x0501 ∧
      (after (.scrubPass (cmd 0x50)) (stepping s step0)).host.held.length = 1 := by decide +kernel
theorem test_fence_proposal : let e : LogEntry := ⟨0, 0, 0, 1, 0, 0, false, false, 64, 0x0701, false⟩
    let s := (ready up).setDie 0 { Die.init with log := [e] }
    s.proposable 0 2 = true ∧ s.proposable 0 3 = false ∧ ((after (.fenceProposal 0 2) s).die 0).cause = 2 ∧
      (after (.fenceProposal 0 2) s).host.evt.getLsbD 3 = true ∧ (after (.fenceProposal 0 2) s).stages = s.stages ∧ after (.fenceProposal 0 3) s = s ∧
      s.proposable 88 6 = true := by decide +kernel
theorem test_die_fence : let s := ready up
    s.dev.part.hasDie 63 = true ∧ s.namesDie 0 0 = true ∧ s.namesDie 0 1 = false ∧ ((after (.dieFence 1) s).die 1).fenced = true ∧
      (after (.dieFence 1) s).stages = s.stages ∧ ((after (.dieFence 0) s).stage 0).st = 0 ∧ after (.dieFence 88) s = s ∧
      ((after (.dieFence 0) (s.setStage 0 { s.stage 0 with st := 3 })).stage 0).why = .fence := by decide +kernel

/-! ### The storage port, sensors and the management port -/

theorem test_enumeration : let l : List NvmeController := List.replicate 17 ⟨64, [⟨1, 512, 1000, 0, false⟩]⟩
    let t := after (.storageEnumeration l) later
    after (.storageEnumeration l) up = up ∧ later.storage.enumerated = false ∧ t.storage.controllers.length = 16 ∧ t.storage.controllers.map (·.granted) = List.replicate 16 4 ∧ t.power.storPerst = false ∧
      (after (.storageEnumeration []) t).storage.controllers.length = 16 := by decide +kernel
theorem test_nvme_again : let s : State := { stored up with storage := { (stored up).storage with ops := [nvme0 (.load 0 0)], nextId := 6 } }
    (after (.nvmeCompletion 5 1 []) s).storage.ops = [{ nvme0 (.load 0 0) with id := 6, second := true, queue := 2 }] ∧
      (after (.nvmeTimeout 5) s).storage.ops = [{ nvme0 (.load 0 0) with id := 6, second := true, queue := 2 }] ∧
      after (.nvmeTimeout 6) s = s ∧ (after (.nvmeControllerFatal 0) s).wire.contains (.nvmeReset 0) = true ∧ after (.nvmeControllerFatal 1) s = s := by
  decide +kernel
theorem test_sensors : up.dev.part.hasSensor 3 = true ∧ Table.get 0 (after (.thermalSample [1, 2, 3, 1440]) up).thermal.sensors 3 = 1440 ∧
    (after (.throttleEvaluation 0) (after (.thermalSample [1, 2, 3, 1440]) up)).thermal.th = [1, 0, 0, 0] ∧
    (after (.throttleEvaluation 0) (after (.thermalSample [1, 2, 3, 1439]) up)).thermal.th = [0, 0, 0, 0] ∧
    (after (.throttleEvaluation (up.dev.part.peakMw + 1)) up).thermal.pw = 1 ∧ (after (.throttleEvaluation up.dev.part.peakMw) up).thermal.pw = 0 := by
  decide +kernel
theorem test_telemetry_update : let t := after (.telemetryUpdate 48000 900000 [1, 2, 3, 70000]) { up with power := { up.power with timestamp := 40 } }
    t.thermal.sampleTime = 40 ∧ t.thermal.inputMv = 48000 ∧ t.thermal.powerW = [1, 2, 3, 4464] := by decide +kernel
theorem test_trip : let t := after (.thermalTrip 3) hot
    after (.thermalTrip 2) hot = hot ∧ t.power.tripLatched = true ∧ t.power.converters = false ∧ t.power.phase = .running ∧ after (.thermalTrip 3) t = t := by decide +kernel
theorem test_management : let s := { up with power := { up.power with timestamp := 150000000 } }
    (after (.mctpControl [0, 0x80, 1, 0, 9]) s).mctpEid = 9 ∧ (after (.mctpControl [0, 0x80, 1, 0, 9]) s).wire.length = 1 ∧
    (after (.pldmSensorRead 2) { s with thermal := { s.thermal with inputMw := 5999 } }).wire.length = 1 ∧ (after .pldmFruRead s).wire = [.mgtReply s.fru] ∧
    after .pldmFruRead { s with power := { s.power with supplyValid := false } } = { s with power := { s.power with supplyValid := false } } ∧
    after .pldmFruRead { s with power := { s.power with timestamp := 149999999 } } = { s with power := { s.power with timestamp := 149999999 } } := by
  decide +kernel

/-- Reset memory is canonical, and a step from it keeps it so. -/
theorem test_reset_canonical : Memory.wf State.reset.mem ∧ Memory.wf (after (.sopAdd 0 sop0) (run (TileWord.sop 0 sop0))).mem := by decide +kernel
theorem test_reset : State.reset.host.ready = false ∧ (State.reset.stage 3).st = 0 ∧ State.reset.readByte 0x100 = 0 ∧ State.reset.pending = [] := by
  decide +kernel


/-! ### States for the hypotheses that name what else goes on -/

/-- No write of another unit is under way in the states of the tests above (R51). -/
theorem test_still : (run 0).unreleased 0 0 = [] ∧ (withBrick 0).unreleased 0 1 = [] ∧ (draining 1).unreleased 0 4 = [] ∧
    (moving 0 mo1).unreleased 0 8 = [] ∧ (loading 0x20 ve1 tyF32).unreleased 0 7 = [] := by decide +kernel
/-- R51: what an earlier store has overwritten may still be read by another unit's instruction, and not by its own. -/
theorem test_racing : let s := (run 0).setUnit 0 8 [{ (run 0).entryFor iss 0x30 false 0 with undo := [(0, 0x10_0000_0000, 7)] }]
    s.unreleased 0 7 ≠ [] ∧ s.unreleased 0 8 = [] := by decide +kernel
theorem test_in_order : let e := (run 0).entryFor iss 0x10 false 0
    (run 0).inOrder 0 0 false = true ∧ (withChains 0 [] [{ e with rows := [([], [])], carries := true }]).inOrder 0 0 false = false ∧
      (draining 1).oslotWritten iss dr0 = true := by decide +kernel
/-- R129, R204: a skewed tag met by an instruction poisons its chain when its turn comes. -/
theorem test_chunk_sum_poison : let e : Issued := { (run 0).entryFor iss 0x10 false 0 with rows := [], poison := 0x0201, carries := true }
    let s := withChains 0 [(0, chain0)] [e]
    ((s.cluster 0).arr 0).running false = some 0 ∧ (after (.chunkSumInsert 0 0) s).chainOf 0 0 0 = { chain0 with st := 2, cause := 0x0201 } ∧
      (((after (.chunkSumInsert 0 0) s).unitQueue 0 1).map (·.status)) = [0x0201] := by decide +kernel
/-- A chain that is FREE, and one of other rows, fail the instruction with ACC_CHAIN_DEPTH (R129). -/
theorem test_chunk_sum_fails : let e : Issued := { (run 0).entryFor iss 0x10 false 0 with rows := List.replicate 32 ([], []), carries := true }
    (((after (.chunkSumInsert 0 0) (withChains 0 [] [e])).unitQueue 0 1).map (·.status)) = [0x0203] ∧
      (((after (.chunkSumInsert 0 0) (withChains 0 [(0, { chain0 with rowsSet := true, rows := 0 })] [e])).unitQueue 0 1).map (·.status)) = [0x0203] ∧
      (((after (.chunkSumInsert 0 0) (withChains 0 [(0, { chain0 with st := 2, cause := 0x0201 })] [e])).unitQueue 0 1).map (·.status)) = [0x0206] := by
  decide +kernel

/-- R421: a command whose input buffer was lost ends when its fence lets it start. -/
theorem test_lost : let s0 := held up 0x1A (zeros 64) []
    let s : State := { s0 with host := { s0.host with held := [⟨0, 7, true, 0x1A, zeros 64, [], true⟩] } }
    (s.heldFor 0 (cmd 0x1A).entry).isSome = true ∧ s.hostReach = true ∧ (s.qp 0).first 7 = true ∧
      status (after (.stageRelease (cmd 0x1A)) s) = some 0x0702 ∧ (after (.stageRelease (cmd 0x1A)) s).host.held = [] := by decide +kernel
theorem test_paused_intake : let s := queued .unbound true
    let t : State := { s with fw := { s.fw with paused := true } }
    t.heldFor 0 identifyCmd.entry = none ∧ after (.identify identifyCmd) t = t := by decide +kernel
/-- A CALIBRATION_WRITE entry with its input buffer, under a session key of zeros (R417, R418). -/
def keyedCmd (fence : Bool) : HostCmd :=
  let head := [0x71, if fence then 1 else 0] ++ zeros 2 ++ toBytes 4 1
  let x := Crypto.gcmEnc (zeros 32) (toBytes 4 1 ++ zeros 8) head (zeros 64)
  ⟨0, head ++ toBytes 4 9 ++ toBytes 4 1024 ++ toBytes 8 0x1000 ++ zeros 24 ++ x.1 ++ x.2, []⟩
/-- R421: an input buffer that cannot be read ends the command at once, or behind a fence once it may start. -/
theorem test_lost_buffer : let s0 := principal (queued .active true) 3 3
    let s := s0.setQp 0 { s0.qp 0 with keys := some { command := zeros 32, completion := zeros 32, data := zeros 64 } }
    let w := s.setQp 0 { s.qp 0 with cmds := [⟨0, 0, 0, 0x50, 0, 0, true, 0, none⟩] }
    let w : State := { w with host := { w.host with nextId := 3 } }
    status (after (.hostDmaReadFailure false (keyedCmd false)) s) = some 0x0702 ∧
      (after (.hostDmaReadFailure false (keyedCmd true)) w).host.held.map (fun h => (h.id, h.lost)) = [(3, true)] := by decide +kernel
/-- The Device Serial Number has a place in the capability list. -/
theorem test_serial_place : ∃ k, (k, (⟨true, 3, 3⟩ : Capability)) ∈ capMap := by
  simp [capMap, placed, capabilities]
/-- R15, R413: a die that an LG-052 does not carry. -/
theorem test_absent_die : let s : State := { up with dev := { up.dev with part := .lg052 } }
    s.dev.part.cds = 32 ∧ (after (.uestatRead 32) s).wire = [.readReply []] ∧ (after (.uestatRead 31) s).wire = [.readReply (zeros 8)] ∧
      s.readPackage (dieWindow 32 + 0x1900_0000) = none := by decide +kernel

/-! ### Steps, loads and reloads -/

/-- R375: a fixed-cadence stage with IN routes starts no padding step without its arrival lines. -/
theorem test_cadence_arrivals : let s := up.setStage 0 { (loaded up).stage 0 with cfg := some { cfg0 with fixedCadence := true }, ins := [route0] }
    s.fixed 0 = true ∧ (s.stage 0).step = none ∧ s.canStart 0 = true ∧ ((s.fill 0 (s.capOf 0)).groups.length) = 0 ∧
      after (.cadencePeriodBoundary 0) s = s := by decide +kernel
/-- R475: a step that waits for a costume image runs once the image is resident again. -/
theorem test_step_waits_image : let p : Machine.Step := { step0 with groups := [emptyGroup 0], aborted := true, attempt := 2 }
    let s := worn (loaded up) [res0 .resident]
    let t := (stepping s p).setStage 0 { (stepping s p).stage 0 with cfg := some cfg0 }
    let w := worn t [{ res0 .loadingDemand with line := some 0 }]
    t.leasable 0 p = true ∧ (((after (.stepReplay 0) t).stage 0).step.map fun q => (q.aborted, q.attempt)) = some (false, 2) ∧
      w.leasable 0 p = false ∧ after (.stepReplay 0) w = w := by decide +kernel
theorem test_loads : (wanted []).nextLoad = none ∧ (wanted []).loads = 0 ∧ (wanted []).reservedFor 0 0 = false ∧
    ((after (.costumeLoad 0 0) (wanted [])).resident 0 0).map (fun r => (r.running, r.fetching)) = some (true, true) := by decide +kernel
/-- R475: a costume image with a failing line is loaded again elsewhere, and its old pages are scrubbed. -/
theorem test_wardrobe_refetch : let a := 2 * 0x400_0000
    let s := worn (loaded up) [res0 .resident]
    let t := after (.refetch a) s
    s.stageOfLine a = some 0 ∧ s.lineAt 0 a = some .wardrobe ∧ s.findRun 0 1 = some (a + 0x10_0000) ∧
      (t.resident 0 0).map (fun r => (r.st, r.addr, r.line)) = some (.loadingDemand, a + 0x10_0000, some a) ∧
      t.costumes.scrubs = [⟨0, 0, a, 1⟩] ∧ (after (.pageScrubComplete 0 0) t).costumes.scrubs = [] := by decide +kernel
/-- R267: the directory entry's 64 bytes. -/
theorem test_entry_bytes : let s := worn up [res0 .resident]
    (s.entryBytes 0).length = 64 ∧ fieldAt (s.entryBytes 0) 0x3C 4 = 1 ∧ fieldAt (s.entryBytes 0) 0x10 4 % 16 = 2 := by decide +kernel
theorem test_storage_load : let s := worn (loaded up) [{ res0 .loadingDemand with running := true, fetching := true, stored := true }]
    let t : State := { s with storage := { (stored s).storage with ops := [{ nvme0 (.load 0 0) with second := true }], nextId := 6 } }
    ((after (.nvmeCompletion 5 0 costumePackage) t).resident 0 0).map (·.fetching) = some false ∧
      ((after (.nvmeTimeout 5) t).resident 0 0).map (·.st) = some .scrubbing := by decide +kernel
theorem test_storage_checkpoint : let s0 := held up 0x3A (zeros 64) []
    let s : State := { s0 with storage := { (stored s0).storage with ops := [{ nvme0 (.checkpoint 0 7 0) with second := true }], nextId := 6 } }
    status (after (.nvmeCompletion 5 0 []) s) = some 0 ∧ status (after (.nvmeTimeout 5) s) = some 0x0702 ∧
      (after (.nvmeTimeout 5) s).storage.ops = [] := by decide +kernel

/-! ### Checkpoints, windows, frames and fences -/

/-- R317: TUNE_OPEN from the checkpoint in staging: none, lost, not authentic, another customer's. -/
theorem test_tune_restore : let s0 := principal (held up 0x38 (zeros 7 ++ [1] ++ zeros 56) (zeros 64)) 4 1
    let e : DirEntry := { ent0 with tables := zeros 64, wrapped := slice costumePackage 0x20 40 }
    let s : State := { worn (loaded s0) [] with costumes := { (worn (loaded s0) []).costumes with dir := [(0, e)] } }
    let w : Bytes → State := fun p => { s with costumes := { s.costumes with ckpts := [(0, p)], ckAt := [(0, [(granuleAddr 1 40, p.length)])] } }
    (w checkpointPackage).stagedCk 0 = some checkpointPackage ∧
      status (after (.tuneOpen (cmd 0x38)) s) = some 0x0304 ∧
      status (after (.tuneOpen (cmd 0x38)) (w (checkpointPackage.set 100 0))) = some 0x0304 ∧
      status (after (.tuneOpen (cmd 0x38)) { w checkpointPackage with poison := [granuleAddr 1 40] }) = some 0x0702 := by decide +kernel
/-- R474: a poisoned line of the update buffer stops the window's end; the job then waits for its rollback. -/
theorem test_window_lost : let j := { job0 with window := .closing, wsteps := 2, grow := 3 }
    let s : State := { tuned up j with poison := [(tuned up j).jobs.headD (0, j) |>.2.line] }
    s.poisoned j.line (64 + s.bufLen 0) = true ∧ ((after (.windowEnd 0) s).job 0).map (·.broken) = some true := by decide +kernel
/-- R318: a rollback to a checkpoint on storage issues its read. -/
theorem test_rollback_storage : let s := tuned up { job0 with broken := true, running := true }
    let t : State := { stored s with costumes := { s.costumes with ckLoc := [(0, 0, 1, 8, 304)] } }
    t.stagedCk 0 = none ∧ ((after (.tuningRollback 0) t).storage.ops.map fun x => (x.slba, x.len, x.write)) = [(8, 304, false)] := by decide +kernel
/-- R324: a ring frame that comes in at port B goes back on its plane through port A. -/
theorem test_port_b : let b := toBytes 8 0x10 ++ toBytes 8 5 ++ zeros 304
    let s := (linked up).setPort 1 { Port.init with trained := true, up := true }
    let t := after (.openFrame ⟨1, b⟩) s
    (s.port 1).inOrder b = true ∧ (s.port 0).wrap = false ∧ (t.port 1).rxSeq = 0 ∧ t.wire.length = 1 := by decide +kernel
/-- R334: a FORM whose sender already has this slot's member as its predecessor. -/
theorem test_form_taken : let s : State := { held up 0x40 (zeros 64) [] with jobs := [(0, { job0 with ring := some { ring0 with joining := some (0, 7) } })] }
    let b := clear 0x11 0 0 (zeros 64 ++ List.replicate 32 9)
    fieldAt (fBody b) 96 2 = ring0.slot ∧ allZero (slice (fBody b) 64 32) = false ∧ (slice (fBody b) 64 32 == ring0.salt) = false ∧
      status (s.ringDeal 0 b) = some 0x0104 ∧ ringOf (s.ringDeal 0 b) = none := by decide +kernel
theorem test_pipe_gone : let s := linked (loaded up)
    let t := after (.pipe pipeFrame0) (s.setStage 0 { s.stage 0 with st := 3, ins := [route0], model := some { model0 with segSeed := zeros 32 } })
    (t.stage 0).ins.map (·.gone) = [1] ∧ t.readByte (7 * 0x400_0000) = 0 := by decide +kernel
/-- R522: a port cabled to one of its own kind has trained and stays down. -/
theorem test_alike : let t := after (.portTrained ⟨1, true⟩) up
    (up.port 1).trained = false ∧ (t.port 1).trained = true ∧ (t.port 1).up = false ∧
      ((linked up).portDown 0).jobs = [] ∧ (((linked up).portDown 0).port 0).wrap = true := by decide +kernel
/-- R392: a fence of a die that a stage in RIGGING names. -/
theorem test_fence_rigging : let s := after (.rigStage (cmd 0x18)) (held up 0x18 (zeros 64) image0)
    let t := after (.dieFence 0) s
    (s.stage 0).st = 1 ∧ s.namesDie 0 0 = true ∧ s.rig.map (·.todo) = some [] ∧ (t.stage 0).st = 0 ∧ (t.stage 0).epoch = 2 ∧ t.rig = none := by
  decide +kernel
/-- R492: a fence of a die ends the requests of a step that waits for its replay with DIE_FENCED; a quiesce ends them with STAGE_GONE. -/
theorem test_abandoned_replay : let s := stepping (loaded (held up 0x30 (zeros 64) [])) { step0 with attempt := 2, aborted := true, errors := [(0, 4, 0)], groups := [{ emptyGroup noHandle with rows := [⟨0, 0, 11, true, false⟩] }] }
    let t := serving s { req0 with cmd := (0, 7) }
    status (after (.dieFence 0) t) = some 0x0703 ∧ ((after (.dieFence 0) t).die 0).unrecovered = 1 ∧ (after (.dieFence 0) t).requests = [] ∧
      status (t.startQuiesce 0 .command none) = some 0x0501 := by decide +kernel
/-- R479: a line that failed, was poisoned and rewritten fails again. -/
theorem test_stuck : let a := 3 * 0x400_0000
    let s := (ready up).setStage 0 { (ready up).stage 0 with scrub := some ⟨(0, 7), 0, 0, 0, 0, 0, [], []⟩ }
    let t := after (.backgroundScrubRead 0 a .persistent) s
    let u : State := { (t.unpoison a 64) with stages := s.stages }
    (t.die 64).log.map (·.stuck) = [false] ∧ u.failsAgain 64 1 a = true ∧ t.failsAgain 64 1 a = false ∧
      ((after (.backgroundScrubRead 0 a .persistent) u).die 64).log.map (fun e => (e.stuck, e.hits)) = [(true, 2)] := by decide +kernel

/-! ### Calibration, clocks, pins -/

/-- The user calibration record of the worked example of R509, and the factory ranges of its lane 19. -/
def calibration0 : Bytes := (((ascii "LGCL" ++ [1, 0, 1, 0] ++ zeros 1016).set 0x86 0xF4 |>.set 0xE5 0xE8).set 0x2E6 0x09).set 0x2E7 0x86
def lanes0 (ctleMax : Nat) : List LaneFuse := List.replicate 19 ⟨0, 0, 15, 0, 0, 15⟩ ++ [⟨5, 4, 7, 8, 6, ctleMax⟩]
theorem test_calibration_ranges : ({ up.dev with lanes := lanes0 11 } : Device).calOk calibration0 = true ∧
    ({ up.dev with lanes := lanes0 8 } : Device).calOk calibration0 = false := by decide +kernel
theorem test_calibration_applies :
    let s : State := { up with dev := { up.dev with lanes := lanes0 11, trims := List.replicate 100 5 }, thermal := { up.thermal with calInForce := calibration0 } }
    s.rail 70 = -7 ∧ s.rail 69 = 5 ∧ s.equalization 19 = (6, 9) ∧ s.equalization 18 = (0, 0) ∧ s.reading 37 = -24 ∧
      { s with thermal := up.thermal }.equalization 19 = (5, 8) := by decide +kernel
/-- R505: the pulses of the worked example. -/
theorem test_pulses : (List.range 16).filter (pulseRemoved 5) = [3, 6, 9, 12, 15] ∧ (List.range 16).filter (pulseRemoved 0) = [] := by decide +kernel
theorem test_output_pins : up.pins.pwrOk = true ∧ (after (.thermalTrip 3) hot).pins.thermTripN = false ∧ up.pins.storPerstN = false ∧
    (after .supplyValidDeassert up).pins.pwrOk = false := by decide +kernel
theorem test_fence_quiesced : let s := (ready up).setStage 0 { (ready up).stage 0 with st := 4 }
    s.rig = none ∧ ((after (.dieFence 0) s).stage 0).st = 0 ∧ ((after (.dieFence 0) s).stage 0).epoch = 4 := by decide +kernel

/-! ### States for what the timed steps, loads, updates and frames leave -/

/-- The state after a step. -/
def idle (s : State) : State := match step s with
  | .next t => t
  | _ => s
/-- R407, R513, R493, R528: what makes a step on an empty queue do more than advance the clock. -/
theorem test_clock : let n : State → Nat := fun s => s.power.timestamp + 10
    let late : State := { up with power := { up.power with timestamp := 300000000, storPerst := true } }
    let wake : State := { up with host := { up.host with ready := false } }
    hot.tooHot 3 = true ∧ (idle hot).power.tripLatched = true ∧ (idle late).power.storPerst = false ∧ late.power.resetAt + storPerstTime ≤ n late ∧
      (idle wake).host.ready = true ∧ (idle up).power.timestamp = 10 := by decide +kernel
/-- R281, R317: an opening without an image in the wardrobe begins a load and waits for it. -/
theorem test_tune_open_waits : let s := worn (loaded (held up 0x38 (zeros 5 ++ [2, 16] ++ zeros 57) (zeros 64))) []
    let o : State := { stored s with costumes := { s.costumes with dir := [(0, { ent0 with tables := zeros 64 })] } }
    let t := after (.tuneOpen (cmd 0x38)) o
    o.currentImage 0 0 = none ∧ o.reservedFor 0 0 = false ∧ (o.findRun 0 1).isSome = true ∧ t.host.held.length = 1 ∧
      (t.resident 0 0).map (·.st) = some .loadingDemand ∧ t.jobs = [] := by decide +kernel
/-- A job of one block over SGD without momentum, with samples, that has come to its update. -/
def updating0 (th : Nat) : State :=
  let j : Job := { job0 with opt := zeros 8 ++ toBytes 8 0x3FF0000000000000 ++ zeros 48, window := .closing, updating := true, left := [0], unwritten := [0]
                             shards := [{ shard0 with count := 1, master := List.replicate 256 th }] }
  (tuned up j).writeLE (j.line + 4) 4 1
/-- R175 to R177: an update of finite parameters commits; an infinite one leaves the shard. -/
theorem test_shard_commits :
    (((updating0 0x3F800000).job 0).map (updating0 0x3F800000).samples) = some 1 ∧
      (((after (.shardUpdate 0 0) (updating0 0x3F800000)).job 0).map fun j => j.shards.map fun h => (h.gen, nth 0 h.master 0)) =
        some [(5, 0x3F800000)] := by decide +kernel
theorem test_shard_keeps :
    (((after (.shardUpdate 0 0) (updating0 0x7F800000)).job 0).map fun j => j.shards.map fun h => (h.gen, nth 0 h.master 0)) =
        some [(4, 0x7F800000)] := by decide +kernel
/-- The other buffer of the costume of `tuned` with the head of an image of 512 vector parameters, or of one head. -/
def alt0 : Nat := 2 * 0x400_0000 + 0x10_0000
def vecImage (s : State) : State := (s.writeLE (alt0 + 0xC) 4 512).writeLE (alt0 + 0x20) 4 64
def headImage (s : State) : State :=
  (((s.writeLE (alt0 + 0x14) 1 1).writeLE (alt0 + 0x20) 4 128).writeLE (alt0 + 0x40) 8 0x20_0000_0010).writeLE (alt0 + 0x48) 16 (0x200 * 2 ^ 32 + 0x400 * 2 ^ 64 + 0x440 * 2 ^ 96)
def placed1 (b : Bytes) : Bool × Nat × Nat := match placeOf b 1 with
  | .vec off len => (false, off, len)
  | .head el hd _ => (true, el, hd)
/-- R330: the bytes of a PARAM in the other buffer, in the vectors and in a head. -/
theorem test_param_bytes : let j := { job0 with updating := true, unwritten := [1] }
    let r := { ring0 with decided := some (true, 16, 0, 0) }
    let v := vecImage (member j r)
    let h := headImage (member j r)
    let f := clear 0x19 1 0 (List.replicate 132 7)
    placed1 (v.imageHead alt0) = (false, 320, 256) ∧ (v.ringDeal 0 f).readByte (alt0 + 320) = 7 ∧
      placed1 (h.imageHead alt0) = (true, 0x280, 0x404) ∧ (h.ringDeal 0 f).readByte (alt0 + 0x280) = 7 := by decide +kernel

/-- R329: a frame of a reserved type under the ring's identifier. -/
theorem test_reserved_frame : let f : FrameIn := ⟨0, toBytes 8 0x20 ++ toBytes 8 5 ++ zeros 304⟩
    let s := linked (member job0 ring0)
    reservedType (fType f.bytes) = true ∧ (ringOf (after (.reservedFrame f) s)).map (·.stat.tagFails) = some 1 ∧
      ((after (.reservedFrame f) s).port 0).rxSeq = 0 := by decide +kernel
/-- R474: lines of mutable data and of an open chain's accumulator slot that cannot be read. -/
theorem test_refetch_poisons : let a := 3 * 0x400_0000
    let s := withChains 0 [(0, chain0)] []
    let s := (ready s).setStage 0 { (ready s).stage 0 with st := 2 }
    s.stageOfLine a = some 0 ∧ s.lineAt 0 a = some .mutable ∧ (after (.refetch a) s).poison = [a] ∧
      s.lineAt 0 (slotWord 0 0 0 0 0) = some (.slot 0 0 0) ∧ (after (.refetch (slotWord 0 0 0 0 0)) s).chainOf 0 0 0 = chain0.poison 0x0702 := by
  decide +kernel
/-- R476: the update engine's run is streamed again, or its shard is withheld. -/
theorem test_update_replay : let s := updating0 0x3F800000
    (s.updatesOn 0).map (·.1) = some 0 ∧ s.updatesOn 1 = none ∧ ((after (.instructionReplay 0 10 true) s).die 0).correctable = 1 ∧
      ((after (.instructionReplay 0 10 false) s).job 0).map (·.left) = some [] ∧ ((after (.instructionReplay 0 10 false) s).die 0).skipped = 1 := by
  decide +kernel
/-- R486: a pass on a QUIESCED stage; a second command waits for the first's end. -/
theorem test_scrub_waits : let s := loaded (held up 0x50 (zeros 64) [])
    let q := s.setStage 0 { s.stage 0 with st := 4 }
    let o := s.setStage 0 { s.stage 0 with scrub := some ⟨(0, 9), 0, 0, 0, 0, 0, [], []⟩ }
    ((after (.scrubPass (cmd 0x50)) q).stage 0).scrub.map (·.cmd) = some (0, 7) ∧ (after (.scrubPass (cmd 0x50)) o).host.held.length = 1 := by
  decide +kernel
/-- R490: what has issued and uses the fenced die completes with DIE_FENCED. -/
theorem test_fence_ready : let s := (stepping (ready up) step0).setUnit 0 7 [{ (run 0).entryFor iss 0x28 false 0 with dies := [0] }]
    ((after (.dieFence 0) s).unitQueue 0 7).map (·.status) = [0x0703] ∧ ((after (.dieFence 0) s).stage 0).why = .fence := by decide +kernel
/-- R343: a block whose additions have not all landed is not final. -/
theorem test_block_waits : let e : DirEntry := { ent0 with tables := zeros 8 ++ toBytes 4 512 ++ toBytes 4 512 ++ [1] ++ zeros 3 ++ zeros 4 ++ toBytes 4 64 ++ zeros 36 ++ zeros 4 ++ toBytes 4 0 ++ toBytes 4 256 ++ zeros 4 }
    let s0 := member { job0 with window := .closing, due := [0] } { ring0 with present := some true }
    let s : State := { s0 with costumes := { s0.costumes with dir := [(0, e)] } }
    (s.job 0).map (s.hasLanded 0 0) = some false ∧ after (.blockFinal 0 0) s = s := by decide +kernel
/-- R334: a joiner that a REFUSE had reached before it could verify it. -/
theorem test_join_refused : let s : State := { held up 0x40 (zeros 64) [] with jobs := [(0, { job0 with ring := some { ring0 with joining := some (0, 7), early := [clear 0x12 0 0 []] } })] }
    status (after (.joinTimeout 0) s) = some 0x0104 ∧ ringOf (after (.joinTimeout 0) s) = none := by decide +kernel
/-- R315: a checkpoint without the costume's image at hand waits for it. -/
theorem test_checkpoint_image : let s0 := tuned (principal (held up 0x3A (zeros 64) []) 4 1) job0
    let e : DirEntry := { ent0 with tables := zeros 64, wrapped := slice costumePackage 0x20 40 }
    let s : State := { s0 with modRuns := [⟨40, 1, 13, 1⟩], costumes := { s0.costumes with dir := [(0, e)], res := [] } }
    s.currentImage 0 0 = none ∧ ((after (.tuneCheckpoint (cmd 0x3A)) s).job 0).map (fun j => (j.ckDue, j.ckReq.isSome)) = some (true, true) := by
  decide +kernel
/-- R342: a pass that ends with an exchange missed in its window. -/
theorem test_pass_late : let s := tuned up { job0 with running := true, thin := 1, passes := [[[1, 2]]], late := [0x0402] }
    ((after (.tuningPassComplete 0) s).job 0).map (fun j => (j.n, j.late, j.wsteps)) = some (1, [], 0) := by decide +kernel
/-- R460: a session bound to another epoch of the stage. -/
theorem test_rerigged : let s0 := loaded (held up 0x19 (zeros 64) [])
    let s := s0.setQp 0 { s0.qp 0 with bound := some (List.replicate 16 2) }
    s.kindOf 1 = 0 ∧ status (after (.stageQuiesce (cmd 0x19)) s) = some 0x0502 ∧ (after (.stageQuiesce (cmd 0x19)) s).power.epochEvents = s.power.epochEvents + 1 := by
  decide +kernel
/-- R435: MODEL_UNLOAD of a READY stage without work quiesces it and leaves it READY. -/
theorem test_unload_ready : let s := loaded (held up 0x11 (zeros 64) [])
    let t := after (.modelUnload (cmd 0x11)) s
    status t = some 0 ∧ (t.stage 0).st = 2 ∧ (t.stage 0).model = none ∧ (t.stage 0).epoch = 4 := by decide +kernel
/-- R468: a record that comes during a life-cycle transition waits for READY. -/
theorem test_record_waits : let s : State := { recording 0 with power := { (recording 0).power with phase := .lifeWipe } }
    (after (.enrol recEnrol) s).records = [recEnrol] ∧ (after (.enrol recEnrol) s).wire = [] := by decide +kernel
/-- R444: REPLACE ends the sessions of its principal. -/
theorem test_replace_ends : let s := (recording 1).setQp 0 { Qp.init with en := true, st := .active, principal := 1 }
    ((after (.replace recReplace) s).qp 0).st = .unbound ∧ ((after (.replace recReplace) s).qp 0).principal = 0 := by decide +kernel
/-- R436: the transition waits until the completion of its command is posted. -/
theorem test_transition_waits : let s0 := held up 0x70 (zeros 64) []
    let q := s0.qp 0
    let s : State := s0.setQp 0 { q with cmds := q.cmds.map fun c => { c with waiting := some ⟨0, 0, 0, false, false, false⟩ } }
    let t : State := { s with host := { s.host with lifeTarget := some 2 } }
    t.lifePosted = false ∧ after .lifecycleTransition t = t := by decide +kernel
/-- R494: the wipe's end leaves the stages of the default image RIGGING. -/
theorem test_wipe_default : let s : State := { State.reset with dev := { State.reset.dev with flashImage := imageFull } }
    s.defaultStages = [0] ∧ ((after .hardwareWipeComplete s).stage 0).st = 1 ∧ (after .hardwareWipeComplete s).power.defaultRig = true := by decide +kernel
/-- R382: RIG_STAGE of a full image. -/
theorem test_rig_full : let t := after (.rigStage (cmd 0x18)) (held up 0x18 (zeros 64) imageFull)
    (t.stage 0).st = 1 ∧ t.rig.map (·.todo) = some [] := by decide +kernel
/-- R451: AUTH on a queue pair that is not OPENING. -/
theorem test_auth_state : status (after (.auth (cmd 3)) (held up 3 (zeros 64) [])) = some 0x0601 := by decide +kernel
/-- R355, R432: the ring status of a job that is in no ring, and of one that is. -/
theorem test_ring_status : let s := held (worn up [res0 .resident]) 0x52 ([1] ++ zeros 63) []
    let m : State := { s with jobs := [(0, { job0 with ring := some ring0 })] }
    status (after (.telemetryRead (cmd 0x52)) s) = some 0x0302 ∧ status (after (.telemetryRead (cmd 0x52)) m) = some 0 := by decide +kernel

/-! ### States for instructions that wait and for queues that begin -/

/-- The queue entry of an instruction that has not begun, with the registers and descriptors of its cluster at issue. -/
def notBegun (s : State) (w : Work) (unit : Nat) (e : Issued) : State :=
  s.setUnit 0 unit [{ e with taken := some ⟨w, (s.cluster 0).sregs, (s.cluster 0).dslots⟩ }]
/-- R216, R225: a MOV that waited begins when it is first and its unit is free. -/
theorem test_begins : let s0 := moving 0 mo1
    let s := notBegun s0 (.mov 0 iss mo1) 8 (s0.entryFor iss 0x30 false 0)
    (after (.instructionCompletion 0 8) s).readLE 0x10_0000_0200 8 = 0x4000_0000_3F80_0000 ∧ s.readLE 0x10_0000_0200 8 = 0 := by decide +kernel
/-- A VEC and a MOV that find their unit at work join its queue and write nothing. -/
theorem test_queued : let s0 := moving 0 mo1
    let s := notBegun s0 (.mov 0 iss mo1) 8 (s0.entryFor iss 0x30 false 0)
    let v := (loading 0x21 ve1 tyF32).setUnit 0 7 [{ (run 0).entryFor iss 0x28 false 0 with status := 0 }]
    ((after (.movCopy iss mo1) s).unitQueue 0 8).length = 2 ∧ (after (.movCopy iss mo1) s).readLE 0x10_0000_0200 8 = 0 ∧
      v.vecReady 0x21 iss ve1 = true ∧ ((after (.st iss ve1) v).unitQueue 0 7).length = 2 ∧ (after (.st iss ve1) v).readLE brickAt 4 = 0xC0000000 := by
  decide +kernel
/-- R144: the window of a slot on which an accumulation is in flight: LD waits, and with NOWAIT fails. -/
theorem test_hazard : let e := { (run 0).entryFor iss 0x10 false 0 with rows := [([], [])], carries := true }
    let s := (ready up).setCluster 0 { ((cl0 (TileWord.vec 0x20 iss ve1)).setArr 0 { (cl0 0).arr 0 with chains := [(0, chain0)], queue := [e] }) with
      sregs := [(6, 2 ^ 32 + 1)], dslots := [(0, descOf tyF32 false (slotWord 0 0 0 0 0) 0 1 1)] }
    let n := { ve1 with nowait := true }
    s.vecBusy 0x20 iss ve1 = true ∧ s.vecReady 0x20 iss ve1 = true ∧ ((after (.ld iss ve1) s).unitQueue 0 7).map (·.taken.isSome) = [true] ∧
      ((after (.ld iss n) (s.setCluster 0 { s.cluster 0 with imem := [(0, TileWord.vec 0x20 iss n)] })).unitQueue 0 7).map (·.status) = [0x0202] := by
  decide +kernel
/-- R119: backward work of a unified stage's tuning pass waits for forward work. -/
theorem test_backward_waits : let e := { (run 0).entryFor iss 0x10 false 0 with rows := [([], [])], carries := true }
    let s0 := withBrick (TileWord.mm 0x11 iss mm0)
    let s := stepping (s0.setUnit 0 1 [e]) { step0 with pass := some 0 }
    s.forwardOver 0 = false ∧ after (.mmT iss mm0) s = s := by decide +kernel
/-- R472: a poisoned line of the chain table under a chain's record. -/
theorem test_table_poison : let e : Issued := { (run 0).entryFor iss 0x10 false 0 with rows := List.replicate 32 ([], []), carries := true }
    let s : State := { withChains 0 [(0, chain0)] [e] with poison := [chainAddr 0 0 0 / 64 * 64] }
    s.poisoned (chainAddr 0 0 0) 8 = true ∧ ((after (.chunkSumInsert 0 0) s).unitQueue 0 1).map (·.status) = [0x0702] := by decide +kernel
/-- R132: a source chain with a value at level 0 that may go into an empty target. -/
theorem test_merge_levels : let f : AccF := { acc0 with cbase := 8 }
    let c := { chain0 with occ := 1, count := 1, rowsSet := true }
    let s := withChains (TileWord.acc 0x19 iss f) [(0, chain0), (8, c)] []
    s.quiet 0 0 [0, 8] = true ∧ layoutOf 0 chain0 (c.slots 8) = 0 ∧ layoutOf 8 c [] = 0 ∧ s.canIssue 0 (TileWord.acc 0x19 iss f) = true ∧
      s.poisoned (chainAddr 0 0 8) 8 = false := by decide +kernel
/-- STQ of one row of a T2 brick through a record at 0x10_0000_0400. -/
def storing : State :=
  (((ready up).setCluster 0 { cl0 (TileWord.vec 0x22 iss { ve1 with qreg := 7 }) with
    sregs := [(6, 16 + 2 ^ 32), (7, 0x10_0000_0400)], v := [(256, 0x40490FDB)], dslots := [(0, descOf tyT2 true brickAt hdrAt 16 16)] }).writeLE
    0x10_0000_0400 4 0x3F800000).writeLE 0x10_0000_0404 4 2
/-- R156: the row goes into its brick. -/
theorem test_stq : let f := { ve1 with qreg := 7 }
    let p := (storing.cluster 0).vop f.opa
    storing.vecReady 0x22 iss f = true ∧ storing.vopCheck 0 true false p = 0 ∧ storing.qcheck (storing.qrec 0x10_0000_0400) p.d = 0 ∧
      ((after (.stq iss f) storing).unitQueue 0 7).map (·.status) = [0] ∧ (after (.stq iss f) storing).readByte brickAt ≠ 0 := by decide +kernel
/-- R374: a stage that receives two runs from one peer: the frame goes to the run that it names. -/
theorem test_two_routes : let s := linked (loaded up)
    let t := after (.pipe pipeFrame0) (s.setStage 0 { s.stage 0 with ins := [{ route0 with first := 8 }, route0], model := some { model0 with segSeed := zeros 32 } })
    t.readByte (7 * 0x400_0000) = 0x33 ∧ (t.stage 0).ins.map (·.written) = [0, 1] := by decide +kernel
/-- R271, R279: a load without room asks for space; a scrub waits for the leases of every buffer. -/
theorem test_unplaced : let s := wanted [{ res0 .loadingDemand with unplaced := true, addr := 0 }]
    let l := stepping (worn (loaded up) [res0 .scrubbing]) { step0 with groups := [emptyGroup 0] }
    after (.costumeLoad 0 0) s = s.makeSpace 0 0 ∧ l.leasedAt 0 (2 * 0x400_0000) = false ∧
      ((after (.pageScrubComplete 0 0) (worn (loaded up) [res0 .scrubbing])).resident 0 0) = none := by decide +kernel

end Sys2Proof.Tests
end

/-! ### What a reset leaves

A part of the state that a table holds reads as its reset value where the table lists nothing, and after a reset every
table is empty. -/

namespace Sys2Proof

@[simp] theorem Table.get_nil {α : Type} (d : α) (k : Nat) : Table.get d [] k = d := rfl

namespace Machine

/-! #### The parts of the state after a reset -/

@[simp] theorem State.reset_stage (g : Nat) : State.reset.stage g = Stage.init := Table.get_nil _ _
@[simp] theorem State.reset_qp (n : Nat) : State.reset.qp n = Qp.init := Table.get_nil _ _
@[simp] theorem State.reset_cluster (cl : ClusterId) : State.reset.cluster cl = Cluster.init := Table.get_nil _ _

@[simp] theorem Cluster.init_sreg (r : Nat) : Cluster.init.sreg r = 0 := by
  by_cases h : r = 0
  · rw [h, Cluster.sreg_zero]
  · rw [Cluster.sreg, if_neg h]; exact Table.get_nil _ _

@[simp] theorem Cluster.init_arr (t : Nat) : Cluster.init.arr t = Arr.init := by
  match t with
  | 0 | 1 | _ + 2 => rfl

@[simp] theorem Arr.init_chain (b : Nat) : Arr.init.chain b = Chain.free := Table.get_nil _ _

@[simp] theorem State.reset_chainOf (cl : ClusterId) (t b : Nat) : State.reset.chainOf cl t b = Chain.free := by
  rw [State.chainOf, State.reset_cluster, Cluster.init_arr, Arr.init_chain]

/-- On-package memory alone: what a staging byte reads under a new key is left open (R455). -/
theorem State.reset_readByte {a : Nat} (h : a < stagingBase) : State.reset.readByte a = 0 := by
  rw [State.readByte, if_pos h]; exact Table.get_nil _ _

/-! #### Operations in flight over a part (R22) -/

theorem Part.inFlight_lg100 : Part.inFlight .lg100 = 24576 := rfl
theorem Part.inFlight_lg052 : Part.inFlight .lg052 = 12288 := rfl

/-- Settles O5, part by part: each table of the reset state is empty, so that what is read of it is the reset value of
the part. -/
theorem resetLeaves : Obligations.ResetLeaves := by
  have stages (g) : (State.reset.stage g).st = 0 ∧ (State.reset.stage g).epoch = 0 ∧ (State.reset.stage g).step = none := by
    rw [State.reset_stage]; exact ⟨rfl, rfl, rfl⟩
  have queuePairs (n) : (State.reset.qp n).st = .disabled ∧ (State.reset.qp n).en = false := by
    rw [State.reset_qp]; exact ⟨rfl, rfl⟩
  have sequencers (cl) : (State.reset.cluster cl).st = .idle ∧ (∀ r, (State.reset.cluster cl).sreg r = 0) ∧
      ∀ t b, (State.reset.chainOf cl t b).st = 0 := by
    refine ⟨?_, fun r => ?_, fun t b => ?_⟩
    · rw [State.reset_cluster]; rfl
    · rw [State.reset_cluster, Cluster.init_sreg]
    · rw [State.reset_chainOf]; rfl
  exact ⟨rfl, rfl, stages, queuePairs, sequencers, Part.inFlight_lg100, Part.inFlight_lg052, fun _ => State.reset_readByte,
    State.reset_mem_wf, rfl⟩

end Machine

end Sys2Proof

/-! ### What a write of a block and of a brick leave in memory

An element write changes the bytes of the element alone, and a block write is one element write after another; a brick
write is a run of packed codes and a tagged header. -/

namespace Sys2Proof

/-! #### Little-endian numbers -/

@[simp] theorem length_toBytes (n x : Nat) : (toBytes n x).length = n := by
  induction n generalizing x with
  | zero => rfl
  | succ n ih => simp [toBytes, ih]

theorem leNat_toBytes (n x : Nat) : leNat (toBytes n x) = x % 2 ^ (8 * n) := by
  induction n generalizing x with
  | zero => simp [toBytes, leNat, Nat.mod_one]
  | succ n ih =>
    have hp : 2 ^ (8 * (n + 1)) = 256 * 2 ^ (8 * n) := by rw [Nat.mul_succ, Nat.pow_add, Nat.mul_comm]
    rw [toBytes, leNat, ih, hp, Nat.mod_mul, BitVec.toNat_ofNat]

/-- A write to this position stores something: its element, or the padding code (R199). -/
def Desc.stores (d : Desc) (i : List Int) : Prop := d.inb i = true ∨ d.inPad i = true ∧ d.padw = true

namespace Machine

/-! #### Bytes and numbers of memory -/

theorem State.readByte_writeBytes_inside (b : Bytes) (s : State) (a j : Nat) (h : j < b.length) :
    (s.writeBytes a b).readByte (a + j) = b.getD j 0 := by
  induction b generalizing s a j with
  | nil => simp at h
  | cons x r ih =>
    cases j with
    | zero =>
      rw [Nat.add_zero, State.writeBytes, State.readByte_writeBytes_outside _ _ _ (Or.inl (Nat.lt_succ_self a))]
      exact State.readByte_writeByte_self s a x
    | succ j =>
      rw [State.writeBytes, Nat.add_comm j, ← Nat.add_assoc, Nat.add_comm 1 j, List.getD_cons_succ]
      exact ih _ _ _ (Nat.lt_of_succ_lt_succ h)

theorem State.readByte_writeLE_outside (s : State) {a n k : Nat} (x : Nat) (h : k < a ∨ a + n ≤ k) :
    (s.writeLE a n x).readByte k = s.readByte k :=
  State.readByte_writeBytes_outside _ _ _ (by simpa using h)

theorem State.readLE_writeLE (s : State) (a n x : Nat) : (s.writeLE a n x).readLE a n = x % 2 ^ (8 * n) := by
  have h := State.readBytes_writeBytes (toBytes n x) s a
  rw [length_toBytes] at h
  rw [State.readLE, State.writeLE, h, leNat_toBytes]

/-- Where the bytes of a range are as before, so is their number. -/
theorem State.readLE_congr {s t : State} (a n : Nat) (h : ∀ k, a ≤ k → k < a + n → t.readByte k = s.readByte k) :
    t.readLE a n = s.readLE a n := by
  have hb : t.readBytes a n = s.readBytes a n := by
    induction n generalizing a with
    | zero => rfl
    | succ n ih =>
      rw [State.readBytes, State.readBytes, h a (Nat.le_refl a) (by omega), ih (a + 1) fun k _ _ => h k (by omega) (by omega)]
  rw [State.readLE, hb, State.readLE]

@[simp] theorem State.writeByte_dev (s : State) (a : Nat) (b : Byte) : (s.writeByte a b).dev = s.dev := by
  unfold State.writeByte; split <;> rfl

@[simp] theorem State.writeBytes_dev (s : State) (a : Nat) (b : Bytes) : (s.writeBytes a b).dev = s.dev := by
  induction b generalizing s a with
  | nil => rfl
  | cons x r ih => rw [State.writeBytes, ih, State.writeByte_dev]

/-! #### Poison, and counters of dropped positions: no byte changes -/

@[simp] theorem State.unpoison_dev (s : State) (a n : Nat) : (s.unpoison a n).dev = s.dev := by
  unfold State.unpoison; dsimp only; split <;> rfl

@[simp] theorem State.readByte_unpoison (s : State) (a n k : Nat) : (s.unpoison a n).readByte k = s.readByte k := by
  unfold State.unpoison; dsimp only; split <;> rfl

@[simp] theorem State.readByte_clearRows (s : State) (d : Desc) (o : List Int) (ext : List Nat) (k : Nat) :
    (s.clearRows d o ext).readByte k = s.readByte k := by
  unfold State.clearRows
  split
  · rfl
  · next h =>
    clear h
    induction positions (ext.drop 1) generalizing s with
    | nil => rfl
    | cons t l ih =>
      rw [List.foldl_cons, ih]
      dsimp only
      split
      · exact State.readByte_unpoison ..
      · rfl

@[simp] theorem State.readByte_addDrops (s : State) (die agent n k : Nat) :
    (s.addDrops die agent n).readByte k = s.readByte k := by
  unfold State.addDrops; split <;> rfl

/-- A broken assembly changes one cluster. The definition is unfolded before it is applied: of the applied form the kernel
would evaluate the region's address arithmetic. -/
theorem State.breakAsm_cases (s : State) (a : Nat) : (∃ cl c, s.breakAsm a = s.setCluster cl c) ∨ s.breakAsm a = s := by
  have h : State.breakAsm = State.breakAsm := rfl
  conv at h => rhs; delta State.breakAsm
  rw [congrFun (congrFun h s) a]
  generalize regionAt s.dev.part a = r
  split
  · dsimp only
    split
    · exact .inl ⟨_, _, rfl⟩
    · exact .inr rfl
  · exact .inr rfl

@[simp] theorem State.readByte_breakAsm (s : State) (a k : Nat) : (s.breakAsm a).readByte k = s.readByte k := by
  obtain ⟨cl, c, h⟩ | h := s.breakAsm_cases a
  · rw [h, State.setCluster_readByte_of]
  · rw [h]

/-! #### One element (R128, R199) -/

/-- An element write reaches a chain record or the bytes of memory. Unfolded before it is applied, as `breakAsm` is. -/
theorem State.putRaw_cases (s : State) (a n code : Nat) :
    (∃ cl k c, regionAt s.dev.part a = some (.chains cl k) ∧ s.putRaw a n code = s.setCluster cl c) ∨
    ((∀ cl k, regionAt s.dev.part a ≠ some (.chains cl k)) ∧ s.putRaw a n code = (s.writeLE a n code).unpoison a n) := by
  have h : State.putRaw = State.putRaw := rfl
  conv at h => rhs; delta State.putRaw
  rw [congrFun (congrFun (congrFun (congrFun h s) a) n) code]
  generalize regionAt s.dev.part a = r
  split
  · next cl k => exact .inl ⟨cl, k, _, rfl, rfl⟩
  · next h => exact .inr ⟨h, rfl⟩

@[simp] theorem State.putRaw_dev (s : State) (a n code : Nat) : (s.putRaw a n code).dev = s.dev := by
  obtain ⟨cl, _, c, -, h⟩ | ⟨-, h⟩ := s.putRaw_cases a n code
  · rw [h, State.setCluster_dev]
  · rw [h, State.unpoison_dev, State.writeLE, State.writeBytes_dev]

theorem State.readByte_putRaw_outside (s : State) {a n k : Nat} (code : Nat) (hk : k < a ∨ a + n ≤ k) :
    (s.putRaw a n code).readByte k = s.readByte k := by
  obtain ⟨cl, _, c, -, h⟩ | ⟨-, h⟩ := s.putRaw_cases a n code
  · rw [h, State.setCluster_readByte_of]
  · rw [h, State.readByte_unpoison, State.readByte_writeLE_outside _ _ hk]

theorem State.readLE_putRaw (s : State) {a : Nat} (n code : Nat)
    (ha : ∀ cl k, regionAt s.dev.part a ≠ some (.chains cl k)) : (s.putRaw a n code).readLE a n = code % 2 ^ (8 * n) := by
  obtain ⟨cl, k, _, h, -⟩ | ⟨-, h⟩ := s.putRaw_cases a n code
  · exact absurd h (ha cl k)
  · rw [h, State.readLE_congr a n fun k _ _ => State.readByte_unpoison .., State.readLE_writeLE]

theorem State.putElem_of_inb (s : State) {d : Desc} {i : List Int} (code : Nat) (h : d.inb i = true) :
    (s.putElem d i code).1 = s.putRaw (d.addr i).toNat d.unit code := by
  rw [State.putElem, if_pos h]

/-- An element write stores one code at the position's address, or nothing. -/
theorem State.putElem_cases (s : State) (d : Desc) (i : List Int) (code : Nat) :
    (d.stores i ∧ ∃ c, (s.putElem d i code).1 = s.putRaw (d.addr i).toNat d.unit c) ∨ (s.putElem d i code).1 = s := by
  by_cases hb : d.inb i = true
  · exact .inl ⟨.inl hb, code, s.putElem_of_inb code hb⟩
  · rw [State.putElem, if_neg hb]
    by_cases hp : d.inPad i = true
    · by_cases hw : d.padw = true
      · exact .inl ⟨.inr ⟨hp, hw⟩, d.fillCode, by rw [if_pos hp, if_pos hw]⟩
      · exact .inr (by rw [if_pos hp, if_neg hw])
    · exact .inr (by rw [if_neg hp])

@[simp] theorem State.putElem_dev (s : State) (d : Desc) (i : List Int) (code : Nat) :
    (s.putElem d i code).1.dev = s.dev := by
  obtain ⟨-, c, h⟩ | h := s.putElem_cases d i code
  · rw [h, State.putRaw_dev]
  · rw [h]

theorem State.readByte_putElem_outside (s : State) {d : Desc} {i : List Int} {a : Nat} (code : Nat)
    (ha : d.stores i → a < (d.addr i).toNat ∨ (d.addr i).toNat + d.unit ≤ a) :
    (s.putElem d i code).1.readByte a = s.readByte a := by
  obtain ⟨hi, c, h⟩ | h := s.putElem_cases d i code
  · rw [h, State.readByte_putRaw_outside _ _ (ha hi)]
  · rw [h]

/-! #### A block, element by element -/

/-- The element writes of a block, in the order of a list of its positions. -/
def State.putElems (s : State) (d : Desc) (o : List Int) (code : List Nat → Nat) (l : List (List Nat)) : State :=
  l.foldl (fun s t => (s.putElem d (plus o t) (code t)).1) s

theorem State.putElems_cons (s : State) (d : Desc) (o : List Int) (code : List Nat → Nat) (t : List Nat)
    (l : List (List Nat)) :
    s.putElems d o code (t :: l) = ((s.putElem d (plus o t) (code t)).1).putElems d o code l := rfl

/-- The fold of `putBlock` beside its count of dropped positions. -/
theorem State.putElems_eq_foldl (s : State) (d : Desc) (o : List Int) (code : List Nat → Nat) (l : List (List Nat))
    (n : Nat) :
    (l.foldl (fun (p : State × Nat) t =>
      let r := p.1.putElem d (plus o t) (code t)
      (r.1, p.2 + r.2)) (s, n)).1 = s.putElems d o code l := by
  induction l generalizing s n with
  | nil => rfl
  | cons t l ih => rw [List.foldl_cons, State.putElems_cons, ih]

/-- Memory after a block write is memory after its element writes. -/
theorem State.readByte_putBlock (s : State) (die agent : Nat) (d : Desc) (o : List Int) (ext : List Nat)
    (x : List Nat → Nat) (a : Nat) :
    (s.putBlock die agent d o ext x).readByte a =
      (s.putElems d o (fun t => (encodePlain d.ty d.ovf false 0 (x t)).1) (positions ext)).readByte a := by
  rw [State.putBlock, State.readByte_addDrops, State.readByte_clearRows,
    State.putElems_eq_foldl s d o (fun t => (encodePlain d.ty d.ovf false 0 (x t)).1)]

theorem State.readByte_putElems_outside (s : State) {d : Desc} {o : List Int} {a : Nat} (code : List Nat → Nat)
    (l : List (List Nat))
    (ha : ∀ t ∈ l, d.stores (plus o t) → a < (d.addr (plus o t)).toNat ∨ (d.addr (plus o t)).toNat + d.unit ≤ a) :
    (s.putElems d o code l).readByte a = s.readByte a := by
  induction l generalizing s with
  | nil => rfl
  | cons t l ih =>
    rw [State.putElems_cons, ih _ fun q hq => ha q (List.mem_cons_of_mem _ hq)]
    exact State.readByte_putElem_outside _ _ (ha t List.mem_cons_self)

/-- The last write of a position in bounds stays, where no other position of the block meets its bytes. -/
theorem State.readLE_putElems (s : State) {d : Desc} {o : List Int} (code : List Nat → Nat) {l : List (List Nat)}
    {p : List Nat} (hp : p ∈ l) (hb : d.inb (plus o p) = true)
    (hd : ∀ q ∈ l, q ≠ p → (d.addr (plus o q)).toNat + d.unit ≤ (d.addr (plus o p)).toNat ∨
      (d.addr (plus o p)).toNat + d.unit ≤ (d.addr (plus o q)).toNat)
    (hc : ∀ cl k, regionAt s.dev.part (d.addr (plus o p)).toNat ≠ some (.chains cl k)) :
    (s.putElems d o code l).readLE (d.addr (plus o p)).toNat d.unit = code p % 2 ^ (8 * d.unit) := by
  induction l generalizing s with
  | nil => cases hp
  | cons t l ih =>
    rw [State.putElems_cons]
    by_cases hl : p ∈ l
    · exact ih _ hl (fun q hq => hd q (List.mem_cons_of_mem _ hq)) (by rwa [State.putElem_dev])
    · obtain rfl : p = t := (List.mem_cons.mp hp).resolve_right hl
      have later : ∀ k, (d.addr (plus o p)).toNat ≤ k → k < (d.addr (plus o p)).toNat + d.unit →
          (((s.putElem d (plus o p) (code p)).1).putElems d o code l).readByte k =
            (s.putElem d (plus o p) (code p)).1.readByte k := fun k _ _ =>
        State.readByte_putElems_outside _ _ _ fun q hq _ => by
          have := hd q (List.mem_cons_of_mem _ hq) fun e => hl (e ▸ hq)
          omega
      rw [State.readLE_congr _ _ later, State.putElem_of_inb _ _ hb, State.readLE_putRaw _ _ _ hc]

end Machine

/-! #### The header of a brick (R42, R43, R48) -/

/-- A header with another tag: the fields of bits 0 to 11 and 18 to 20 stay, and bits 21 to 31 are 0. -/
theorem reTag_eq (h tag : Nat) :
    reTag h tag = h % 4096 + tag % 64 * 4096 + h % 2097152 / 262144 * 262144 := by
  simp only [reTag, setBits, Nat.reducePow, Nat.reduceAdd]
  omega

theorem reTag_lt (h tag : Nat) : reTag h tag < 2 ^ 32 := by rw [reTag_eq]; omega

theorem hdrE_reTag (h tag : Nat) : hdrE (reTag h tag) = hdrE h := by
  simp only [hdrE, bits, reTag_eq, Nat.reducePow]; omega

theorem hdrZp_reTag (h tag : Nat) : hdrZp (reTag h tag) = hdrZp h := by
  simp only [hdrZp, bits, reTag_eq, Nat.reducePow]; omega

theorem hdrTag_reTag (h tag : Nat) : hdrTag (reTag h tag) = tag % 64 := by
  simp only [hdrTag, bits, reTag_eq, Nat.reducePow]; omega

theorem brickTag_lt (a : Nat) : brickTag a < 64 := by
  have fold (l : List Nat) (n t : Nat) (ht : t < 2 ^ 6) : l.foldl (fun t k => t ^^^ bits n (6 * k) 6) t < 2 ^ 6 := by
    induction l generalizing t with
    | nil => exact ht
    | cons k l ih => exact ih _ (Nat.xor_lt_two_pow ht (Nat.mod_lt _ (by decide)))
  exact fold _ _ 0 (by decide)

/-- A header with the tag of its brick's address passes for every exponent but 255. -/
theorem checkHdr_reTag {h tag : Nat} (he : hdrE h ≠ 255) (ht : tag < 64) : (checkHdr (reTag h tag) tag).1 = 0 := by
  rw [checkHdr, hdrE_reTag, if_neg he, hdrTag_reTag, Nat.mod_eq_of_lt ht, if_neg (by simp)]

/-! #### The codes of a brick (R39) -/

/-- The number whose digits in base `2 ^ w` are the first `n` values of `f`, as `packBrick` sums it up. -/
def packDigits (w : Nat) (f : Nat → Nat) (n : Nat) : Nat := (List.range n).foldl (fun a k => a + f k * 2 ^ (w * k)) 0

theorem packDigits_succ (w : Nat) (f : Nat → Nat) (n : Nat) :
    packDigits w f (n + 1) = packDigits w f n + f n * 2 ^ (w * n) := by
  rw [packDigits, List.range_succ, List.foldl_append]; rfl

theorem packDigits_lt {w : Nat} {f : Nat → Nat} (hf : ∀ k, f k < 2 ^ w) (n : Nat) : packDigits w f n < 2 ^ (w * n) := by
  induction n with
  | zero => simp [packDigits]
  | succ n ih =>
    calc packDigits w f (n + 1) < 2 ^ (w * n) + f n * 2 ^ (w * n) := by rw [packDigits_succ]; omega
      _ = (f n + 1) * 2 ^ (w * n) := by rw [Nat.succ_mul, Nat.add_comm]
      _ ≤ 2 ^ w * 2 ^ (w * n) := Nat.mul_le_mul_right _ (hf n)
      _ = 2 ^ (w * (n + 1)) := by rw [← Nat.pow_add, Nat.mul_succ, Nat.add_comm]

theorem bits_packDigits {w : Nat} {f : Nat → Nat} (hf : ∀ k, f k < 2 ^ w) {n i : Nat} (hi : i < n) :
    bits (packDigits w f n) (w * i) w = f i := by
  induction n with
  | zero => omega
  | succ n ih =>
    rw [packDigits_succ, bits]
    rcases Nat.lt_succ_iff_lt_or_eq.mp hi with h | rfl
    · -- the digits above `i` are a multiple of 2 ^ (w * i + w)
      obtain ⟨m, rfl⟩ := Nat.exists_eq_add_of_lt h
      have hp : 2 ^ (w * (i + m + 1)) = 2 ^ (w * i) * (2 ^ w * 2 ^ (w * m)) := by
        rw [← Nat.pow_add, ← Nat.pow_add, Nat.add_assoc, Nat.mul_add, Nat.mul_succ, Nat.add_comm (w * m)]
      rw [hp, Nat.mul_left_comm, Nat.mul_left_comm (f _), Nat.add_mul_div_left _ _ (Nat.two_pow_pos _),
        Nat.add_mul_mod_self_left]
      exact ih h
    · rw [Nat.add_mul_div_right _ _ (Nat.two_pow_pos _), Nat.div_eq_of_lt (packDigits_lt hf i), Nat.zero_add,
        Nat.mod_eq_of_lt (hf i)]

@[simp] theorem length_packBrick (ty : Nat) (codes : List Nat) : (packBrick ty codes).length = brickBytes ty := by
  simp [packBrick]

theorem getD_packBrick (ty : Nat) (codes : List Nat) {j : Nat} (h : j < brickBytes ty) :
    (packBrick ty codes).getD j 0 =
      BitVec.ofNat 8 (packDigits (codeBits ty) (fun k => codes.getD (8 / codeBits ty * j + k) 0) (8 / codeBits ty)) := by
  have hj : j < (packBrick ty codes).length := by rwa [length_packBrick]
  rw [List.getD_eq_getElem?_getD, List.getElem?_eq_getElem hj, Option.getD_some]
  simp only [packBrick, List.getElem_map, List.getElem_range, packDigits]

/-- The three shapes of a brick: codes of 8, 2 and 4 bits, the brick's bytes, and where element (r, c) stands. -/
theorem brick_shapes (ty : Nat) :
    (codeBits ty = 8 ∧ brickBytes ty = 256 ∧ ∀ r c, elemPos ty r c = (16 * r + c, 0)) ∨
    (codeBits ty = 2 ∧ brickBytes ty = 64 ∧ ∀ r c, elemPos ty r c = (4 * r + c / 4, 2 * (c % 4))) ∨
    (codeBits ty = 4 ∧ brickBytes ty = 128 ∧ ∀ r c, elemPos ty r c = (8 * r + c / 2, 4 * (c % 2))) := by
  unfold codeBits brickBytes elemPos
  by_cases h8 : ty = tyE8
  · exact .inl ⟨if_pos h8, if_pos h8, fun _ _ => if_pos h8⟩
  · simp only [if_neg h8]
    by_cases h2 : ty = tyT2
    · exact .inr (.inl ⟨if_pos h2, if_pos h2, fun _ _ => if_pos h2⟩)
    · exact .inr (.inr ⟨if_neg h2, if_neg h2, fun _ _ => if_neg h2⟩)

/-- A byte holds a whole number of codes, and a brick 256 codes. -/
theorem codeBits_mul_perByte (ty : Nat) : codeBits ty * (8 / codeBits ty) = 8 := by
  obtain ⟨hw, -, -⟩ | ⟨hw, -, -⟩ | ⟨hw, -, -⟩ := brick_shapes ty <;> rw [hw]

theorem perByte_mul_brickBytes (ty : Nat) : 8 / codeBits ty * brickBytes ty = 256 := by
  obtain ⟨hw, hb, -⟩ | ⟨hw, hb, -⟩ | ⟨hw, hb, -⟩ := brick_shapes ty <;> rw [hw, hb]

/-- Element (r, c) is the row-major number 16 r + c; its code follows those of the lower numbers. -/
theorem elemPos_eq (ty r c : Nat) :
    elemPos ty r c = ((16 * r + c) / (8 / codeBits ty), codeBits ty * ((16 * r + c) % (8 / codeBits ty))) := by
  obtain ⟨hw, -, hp⟩ | ⟨hw, -, hp⟩ | ⟨hw, -, hp⟩ := brick_shapes ty <;> rw [hw, hp, Prod.mk.injEq] <;> omega

theorem elemPos_lt (ty : Nat) {r c : Nat} (hr : r < 16) (hc : c < 16) : (elemPos ty r c).1 < brickBytes ty := by
  rw [elemPos_eq]
  exact Nat.div_lt_of_lt_mul (by rw [perByte_mul_brickBytes]; omega)

/-- The code of an element stands at its place in the packed bytes. -/
theorem bits_packBrick (ty : Nat) {codes : List Nat} (hcodes : ∀ c ∈ codes, c < 2 ^ codeBits ty) {r c : Nat}
    (hr : r < 16) (hc : c < 16) :
    bits ((packBrick ty codes).getD (elemPos ty r c).1 0).toNat (elemPos ty r c).2 (codeBits ty) =
      nth 0 codes (16 * r + c) := by
  have digits (e : Nat) : codes.getD e 0 < 2 ^ codeBits ty := by
    rcases Nat.lt_or_ge e codes.length with h | h
    · rw [List.getD_eq_getElem?_getD, List.getElem?_eq_getElem h]; exact hcodes _ (List.getElem_mem h)
    · rw [List.getD_eq_getElem?_getD, List.getElem?_eq_none h]; exact Nat.two_pow_pos _
  have hper : 0 < 8 / codeBits ty := Nat.pos_of_mul_pos_left (by rw [codeBits_mul_perByte]; decide)
  have hbyte := packDigits_lt (fun k => digits (8 / codeBits ty * (elemPos ty r c).1 + k)) (8 / codeBits ty)
  rw [codeBits_mul_perByte] at hbyte
  rw [getD_packBrick _ _ (elemPos_lt ty hr hc), BitVec.toNat_ofNat, Nat.mod_eq_of_lt hbyte, elemPos_eq,
    bits_packDigits (fun k => digits _) (Nat.mod_lt _ hper), Nat.div_add_mod, nth]

namespace Machine

/-! #### A brick in memory -/

theorem State.putBrick_none (s : State) (d : Desc) (off : Int) (hdr : Nat) (codes : List Nat) :
    s.putBrick d off hdr codes none =
      (((s.breakAsm (d.brickAddr off)).writeBytes (d.brickAddr off) (packBrick d.ty codes)).unpoison
        (d.brickAddr off) d.unit).writeLE (d.hdrAddr off) 4 (reTag hdr (brickTag (d.brickAddr off))) := rfl

theorem State.readLE_putBrick_hdr (s : State) (d : Desc) (off : Int) (hdr : Nat) (codes : List Nat) :
    (s.putBrick d off hdr codes none).readLE (d.hdrAddr off) 4 = reTag hdr (brickTag (d.brickAddr off)) := by
  rw [State.putBrick_none, State.readLE_writeLE]
  exact Nat.mod_eq_of_lt (reTag_lt _ _)

theorem State.readByte_putBrick (s : State) (d : Desc) (off : Int) (hdr : Nat) (codes : List Nat) {j : Nat}
    (hj : j < brickBytes d.ty)
    (hd : d.hdrAddr off + 4 ≤ d.brickAddr off ∨ d.brickAddr off + brickBytes d.ty ≤ d.hdrAddr off) :
    (s.putBrick d off hdr codes none).readByte (d.brickAddr off + j) = (packBrick d.ty codes).getD j 0 := by
  rw [State.putBrick_none, State.readByte_writeLE_outside _ _ (by omega), State.readByte_unpoison,
    State.readByte_writeBytes_inside _ _ _ _ (by rwa [length_packBrick])]

/-- Settles O28: a block is written element by element, so that a byte no element takes stays and an element that no
other meets keeps its code; of a brick the packed codes and the tagged header are read back. -/
theorem blockWrites : Obligations.BlockWrites := by
  unfold Obligations.BlockWrites
  refine ⟨fun s die agent d o ext x => ⟨fun a ha => ?_, fun p hp hb _ _ _ hd hc => ?_⟩, ?_⟩
  · rw [State.readByte_putBlock]
    exact State.readByte_putElems_outside _ _ _ fun t ht hs => ha t ⟨ht, hs⟩
  · rw [State.readLE_congr _ _ fun k _ _ => State.readByte_putBlock ..]
    exact State.readLE_putElems _ _ hp hb hd hc
  · intro s d off hdr codes _ _ _ hcodes he hd
    dsimp only
    rw [State.readLE_putBrick_hdr]
    refine ⟨checkHdr_reTag he (brickTag_lt _), hdrE_reTag _ _, hdrZp_reTag _ _, fun r c hr hc => ?_⟩
    rw [State.readByte_putBrick _ _ _ _ _ (elemPos_lt _ hr hc) hd]
    exact bits_packBrick _ hcodes hr hc

end Machine

end Sys2Proof

/-! ### An instruction joins the queue of an array

What a queue reads once an instruction has joined it, and what that leaves as it was. -/

namespace Sys2Proof.Machine

/-! #### The arrays of a cluster -/

@[simp] theorem Cluster.arr_setArr_self (c : Cluster) (t : Nat) (a : Arr) : (c.setArr t a).arr t = a := by
  match t with
  | 0 | 1 | _ + 2 => rfl

theorem Cluster.arr_setArr_other (c : Cluster) {t u : Nat} (a : Arr) (ht : t < 3) (hu : u < 3) (h : u ≠ t) :
    (c.setArr t a).arr u = c.arr u := by
  match t, u with
  | 0, 0 | 1, 1 => exact absurd rfl h
  | 0, 1 | 0, _ + 2 | 1, 0 | 1, _ + 2 | _ + 2, 0 | _ + 2, 1 => rfl
  | _ + 2, _ + 2 => omega

@[simp] theorem Cluster.drain_setArr (c : Cluster) (t u : Nat) (a : Arr) : (c.setArr t a).drain u = c.drain u := by
  match t with
  | 0 | 1 | _ + 2 => rfl

@[simp] theorem Cluster.vec_setArr (c : Cluster) (t : Nat) (a : Arr) : (c.setArr t a).vec = c.vec := by
  match t with
  | 0 | 1 | _ + 2 => rfl

@[simp] theorem Cluster.pc_setArr (c : Cluster) (t : Nat) (a : Arr) : (c.setArr t a).pc = c.pc := by
  match t with
  | 0 | 1 | _ + 2 => rfl

@[simp] theorem Cluster.arr_next (c : Cluster) (t : Nat) : c.next.arr t = c.arr t := rfl
@[simp] theorem Cluster.drain_next (c : Cluster) (t : Nat) : c.next.drain t = c.drain t := rfl

@[simp] theorem Arr.tile_setTile (a : Arr) (w : Bool) (x : Option Tile) : (a.setTile w x).tile w = x := by
  cases w <;> rfl
@[simp] theorem Arr.chains_setTile (a : Arr) (w : Bool) (x : Option Tile) : (a.setTile w x).chains = a.chains := by
  cases w <;> rfl
@[simp] theorem Arr.queue_setTile (a : Arr) (w : Bool) (x : Option Tile) : (a.setTile w x).queue = a.queue := by
  cases w <;> rfl

theorem State.setCluster_setCluster (s : State) (n : Nat) (c d : Cluster) :
    (s.setCluster n c).setCluster n d = s.setCluster n d := by
  simp only [State.setCluster, Table.set_set]

/-! #### Queues -/

theorem State.unitQueue_array (s : State) (cl : ClusterId) {t : Nat} (ht : t < 3) :
    s.unitQueue cl (t + 1) = ((s.cluster cl).arr t).queue := by
  unfold State.unitQueue
  rw [if_neg (by omega), if_neg (by omega), if_neg (by omega), if_neg (by omega), Nat.add_sub_cancel]

/-- An instruction joins an array's queue and PC moves on: the one cluster changes. -/
theorem State.push_array (s : State) (cl : ClusterId) {t : Nat} (e : Issued) (ht : t < 3) :
    s.push cl (t + 1) e = s.setCluster cl
      ((s.cluster cl).setArr t { (s.cluster cl).arr t with queue := ((s.cluster cl).arr t).queue ++ [e] }).next := by
  rw [State.push, State.unitQueue_array s cl ht]
  unfold State.setUnit
  rw [if_neg (by omega), if_neg (by omega), if_neg (by omega), if_neg (by omega), Nat.add_sub_cancel, State.advance,
    State.setCluster_self, State.setCluster_setCluster]

/-- The queues of a cluster lie in its arrays, its drain units and its vector engine, and in the movers of its die. -/
theorem State.unitQueue_congr {s t : State} {cl : ClusterId} {u : Nat} (hu : 1 ≤ u ∧ u ≤ 9)
    (ha : ∀ k, k < 3 → u = k + 1 → ((t.cluster cl).arr k).queue = ((s.cluster cl).arr k).queue)
    (hd : ∀ k, (t.cluster cl).drain k = (s.cluster cl).drain k) (hv : (t.cluster cl).vec = (s.cluster cl).vec)
    (h0 : (t.die (cl / 16)).mover0 = (s.die (cl / 16)).mover0) (h1 : (t.die (cl / 16)).mover1 = (s.die (cl / 16)).mover1) :
    t.unitQueue cl u = s.unitQueue cl u := by
  unfold State.unitQueue
  split
  · exact h0
  split
  · exact h1
  split
  · exact hv
  split
  · exact hd _
  · exact ha _ (by omega) (by omega)

/-- The program's place, the instructions that the units of a cluster hold, and the other clusters, are as before. -/
structure State.sameIssue (s t : State) (cl : ClusterId) : Prop where
  queues : ∀ u, 1 ≤ u → u ≤ 9 → t.unitQueue cl u = s.unitQueue cl u
  pc : (t.cluster cl).pc = (s.cluster cl).pc
  others : ∀ k, k ≠ cl → t.cluster k = s.cluster k

/-- An instruction joins an array's queue in a state that holds the instructions of `s`: seen from `s`, it has issued. -/
theorem State.sameIssue.issued_push {s r : State} {cl : ClusterId} (h : s.sameIssue r cl) {t : Nat} (ht : t < 3) {e x : Issued}
    (hx : { x with frames := e.frames, counts := e.counts, quant := e.quant, undo := e.undo, dies := e.dies } = e) :
    s.issued (r.push cl (t + 1) x) cl (t + 1) e := by
  rw [State.push_array r cl x ht]
  refine ⟨⟨x, ?_, hx⟩, ?_, fun u hu hu' hne => ?_, fun k hk => ?_⟩
  · rw [← h.queues (t + 1) (by omega) (by omega), State.unitQueue_array _ cl ht, State.unitQueue_array _ cl ht]
    simp
  · simp [Cluster.next, h.pc]
  · rw [← h.queues u hu hu']
    refine State.unitQueue_congr ⟨hu, hu'⟩ (fun k hk hku => ?_) (fun k => ?_) ?_ rfl rfl
    · simp [Cluster.arr_setArr_other _ _ ht hk (by omega : k ≠ t)]
    · simp
    · simp [Cluster.next]
  · rw [State.setCluster_other _ _ _ hk, h.others k hk]

@[simp] theorem State.readByte_push_array (s : State) (cl : ClusterId) {t : Nat} (e : Issued) (ht : t < 3) (b : Nat) :
    (s.push cl (t + 1) e).readByte b = s.readByte b := by
  rw [State.push_array s cl e ht, State.setCluster_readByte_of]

theorem State.arr_push_array (s : State) (cl : ClusterId) {t : Nat} (e : Issued) (ht : t < 3) :
    ((s.push cl (t + 1) e).cluster cl).arr t =
      { (s.cluster cl).arr t with queue := ((s.cluster cl).arr t).queue ++ [e] } := by
  rw [State.push_array s cl e ht, State.setCluster_self, Cluster.arr_next, Cluster.arr_setArr_self]

/-! #### Counters, events and free values: nothing that an instruction reads changes -/

/-- Counters of dies, events of the host and draws apart, what instructions read and hold is as before. -/
structure State.sameWork (s t : State) : Prop where
  bytes : s.sameBytes t
  clusters : ∀ cl, t.cluster cl = s.cluster cl
  mover0 : ∀ d, (t.die d).mover0 = (s.die d).mover0
  mover1 : ∀ d, (t.die d).mover1 = (s.die d).mover1

theorem State.sameWork.refl (s : State) : s.sameWork s := ⟨fun _ => rfl, fun _ => rfl, fun _ => rfl, fun _ => rfl⟩

theorem State.sameWork.trans {s t u : State} (h : s.sameWork t) (g : t.sameWork u) : s.sameWork u :=
  ⟨fun a => (g.bytes a).trans (h.bytes a), fun k => (g.clusters k).trans (h.clusters k),
    fun d => (g.mover0 d).trans (h.mover0 d), fun d => (g.mover1 d).trans (h.mover1 d)⟩

theorem State.sameIssue.trans {s t u : State} {cl : ClusterId} (h : s.sameIssue t cl) (g : t.sameIssue u cl) : s.sameIssue u cl :=
  ⟨fun n hn hn' => (g.queues n hn hn').trans (h.queues n hn hn'), g.pc.trans h.pc,
    fun k hk => (g.others k hk).trans (h.others k hk)⟩

theorem State.sameWork.sameIssue {s t : State} (h : s.sameWork t) (cl : ClusterId) : s.sameIssue t cl where
  queues u hu hu' := State.unitQueue_congr ⟨hu, hu'⟩ (fun _ _ _ => by rw [h.clusters]) (fun _ => by rw [h.clusters])
    (by rw [h.clusters]) (h.mover0 _) (h.mover1 _)
  pc := by rw [h.clusters]
  others k _ := h.clusters k

/-- A die whose movers hold the same operations. -/
theorem State.sameWork_setDie (s : State) (n : Nat) (d : Die) (h0 : d.mover0 = (s.die n).mover0)
    (h1 : d.mover1 = (s.die n).mover1) : s.sameWork (s.setDie n d) where
  bytes _ := rfl
  clusters _ := rfl
  mover0 k := by
    by_cases hk : k = n
    · rw [hk, State.setDie_self, h0]
    · rw [State.setDie_other _ _ _ hk]
  mover1 k := by
    by_cases hk : k = n
    · rw [hk, State.setDie_self, h1]
    · rw [State.setDie_other _ _ _ hk]

theorem State.sameWork_free (s : State) : s.sameWork s.free.2 := ⟨fun _ => rfl, fun _ => rfl, fun _ => rfl, fun _ => rfl⟩

theorem State.sameWork_event (s : State) (k : Nat) : s.sameWork (s.event k) := by
  unfold State.event
  split
  · exact .refl s
  · exact ⟨fun _ => rfl, fun _ => rfl, fun _ => rfl, fun _ => rfl⟩

theorem State.sameWork_descFault (s : State) (cl agent st : Nat) : s.sameWork (s.descFault cl agent st) := by
  unfold State.descFault
  dsimp only
  split
  · exact s.sameWork_setDie _ _ rfl rfl
  · exact .refl s

theorem State.sameWork_addSummary (s : State) (die n : Nat) : s.sameWork (s.addSummary die n) := by
  unfold State.addSummary
  dsimp only
  split
  · exact s.sameWork_setDie _ _ rfl rfl
  · refine State.sameWork.trans ?_ (State.sameWork_event _ _)
    exact s.sameWork_setDie _ _ rfl rfl

theorem State.sameWork_addReserved (s : State) (die n : Nat) : s.sameWork (s.addReserved die n) := by
  unfold State.addReserved
  dsimp only
  split
  · exact .refl s
  · refine State.sameWork.trans ?_ (State.sameWork_addSummary _ _ _)
    split
    · refine State.sameWork.trans ?_ (State.sameWork_event _ _)
      exact s.sameWork_setDie _ _ rfl rfl
    · exact s.sameWork_setDie _ _ rfl rfl

end Sys2Proof.Machine

/-! ### Bricks read alike

What a read of bricks delivers rests on the bytes of memory, the poisoned lines, the part and the chain records. -/

namespace Sys2Proof.Machine

/-- All that a read of an operand looks at is as before. -/
structure State.sameReads (s t : State) : Prop where
  bytes : s.sameBytes t
  poison : t.poison = s.poison
  dev : t.dev = s.dev
  chains : ∀ cl a b, t.chainOf cl a b = s.chainOf cl a b

namespace State.sameReads

variable {s t : State} (h : s.sameReads t)
include h

theorem readLE (a n : Nat) : t.readLE a n = s.readLE a n := State.readLE_congr a n fun k _ _ => h.bytes k

theorem poisoned (a n : Nat) : t.poisoned a n = s.poisoned a n := by rw [State.poisoned, h.poison, State.poisoned]

theorem mapChannels (a : Nat) : t.mapChannels a = s.mapChannels a := by simp only [State.mapChannels, h.readLE]

theorem mapPoisoned (a : Nat) : t.mapPoisoned a = s.mapPoisoned a := by
  simp only [State.mapPoisoned, h.readLE, h.poisoned]

theorem stored (d : Desc) (i : List Int) : t.stored d i = s.stored d i := by
  have record (cl k b : Nat) : ((t.cluster cl).arr k).chain b = ((s.cluster cl).arr k).chain b := h.chains cl k b
  simp only [State.stored, h.readLE, h.poisoned, h.mapPoisoned, h.mapChannels, h.bytes _, h.dev, record]

theorem cell (d : Desc) (i : List Int) : t.cell d i = s.cell d i := by
  simp only [State.cell, h.stored, h.readLE, h.poisoned]

theorem readBrick (d : Desc) (role : Nat) (i : List Int) : t.readBrick d role i = s.readBrick d role i := by
  simp only [State.readBrick, h.cell, h.readLE, h.poisoned]

theorem readBricks (d : Desc) (role : Nat) (o : List Int) (rows cols : Nat) :
    t.readBricks d role o rows cols = s.readBricks d role o rows cols := by
  simp only [State.readBricks, h.readBrick]

end State.sameReads

/-- An array with the same chain records leaves those of every array as they were. -/
theorem Cluster.chains_setArr (c : Cluster) (t u : Nat) {a : Arr} (h : a.chains = (c.arr t).chains) :
    ((c.setArr t a).arr u).chains = (c.arr u).chains := by
  match t, u with
  | 0, 0 | 1, 1 | _ + 2, _ + 2 => exact h
  | 0, 1 | 0, _ + 2 | 1, 0 | 1, _ + 2 | _ + 2, 0 | _ + 2, 1 => rfl

/-- A stationary tile is nothing that a read looks at. -/
theorem State.sameReads_setTile (s : State) (cl : ClusterId) (t : Nat) (w : Bool) (x : Option Tile) :
    s.sameReads (s.setCluster cl ((s.cluster cl).setArr t (((s.cluster cl).arr t).setTile w x))) where
  bytes _ := rfl
  poison := rfl
  dev := rfl
  chains k u b := by
    by_cases hk : k = cl
    · rw [hk, State.chainOf, Arr.chain, State.setCluster_self, Cluster.chains_setArr _ _ _ (Arr.chains_setTile _ _ _)]
      rfl
    · rw [State.chainOf, State.setCluster_other _ _ _ hk, State.chainOf]

end Sys2Proof.Machine

/-! ### What an MM-family instruction leaves at issue (R97, R102, R203, R204)

Every outcome is an entry that joins the array's queue, in a state where at most the active tile and counters have
changed. -/

namespace Sys2Proof.Machine

/-! #### The tile that is active -/

/-- Nothing but counters has changed since `s`, and the tile of a stream of an array, which is `x` now. -/
structure State.activates (s t : State) (cl : ClusterId) (k : Nat) (w : Bool) (x : Option Tile) : Prop where
  bytes : s.sameBytes t
  issue : s.sameIssue t cl
  chains : ((t.cluster cl).arr k).chains = ((s.cluster cl).arr k).chains
  tile : ((t.cluster cl).arr k).tile w = x

theorem State.activates.refl (s : State) (cl : ClusterId) (k : Nat) (w : Bool) :
    s.activates s cl k w (((s.cluster cl).arr k).tile w) :=
  ⟨fun _ => rfl, (State.sameWork.refl s).sameIssue cl, rfl, rfl⟩

theorem State.activates.sameWork {s t u : State} {cl : ClusterId} {k : Nat} {w : Bool} {x : Option Tile}
    (h : s.activates t cl k w x) (g : t.sameWork u) : s.activates u cl k w x where
  bytes a := (g.bytes a).trans (h.bytes a)
  issue := h.issue.trans (g.sameIssue cl)
  chains := by rw [g.clusters, h.chains]
  tile := by rw [g.clusters, h.tile]

theorem State.activates_setTile (s : State) (cl : ClusterId) {k : Nat} (hk : k < 3) (w : Bool) (x : Option Tile) :
    s.activates (s.setCluster cl ((s.cluster cl).setArr k (((s.cluster cl).arr k).setTile w x))) cl k w x where
  bytes _ := rfl
  issue := by
    refine ⟨fun u hu hu' => State.unitQueue_congr ⟨hu, hu'⟩ (fun t ht _ => ?_) ?_ ?_ rfl rfl, ?_, fun _ h => State.setCluster_other _ _ _ h⟩
    · by_cases h : t = k
      · subst h; simp
      · rw [State.setCluster_self, Cluster.arr_setArr_other _ _ hk ht h]
    · simp
    · simp
    · simp
  chains := by simp
  tile := by simp

/-- An instruction has joined the queue of an array: no byte and no chain has changed since `s`, and the tile of its stream
is `x` now. -/
structure State.joins (s t : State) (cl : ClusterId) (k : Nat) (w : Bool) (x : Option Tile) (e : Issued) : Prop where
  bytes : s.sameBytes t
  chains : ((t.cluster cl).arr k).chains = ((s.cluster cl).arr k).chains
  tile : ((t.cluster cl).arr k).tile w = x
  issued : s.issued t cl (k + 1) e

theorem State.activates.push {s t : State} {cl : ClusterId} {k : Nat} {w : Bool} {x : Option Tile} (h : s.activates t cl k w x)
    (hk : k < 3) {e y : Issued}
    (hy : { y with frames := e.frames, counts := e.counts, quant := e.quant, undo := e.undo, dies := e.dies } = e) :
    s.joins (t.push cl (k + 1) y) cl k w x e where
  bytes a := by rw [State.readByte_push_array _ _ _ hk, h.bytes]
  chains := by rw [State.arr_push_array _ _ _ hk, ← h.chains]
  tile := by rw [State.arr_push_array _ _ _ hk, ← h.tile]; rfl
  issued := h.issue.issued_push hk hy

/-! #### The parts of the work -/

theorem State.entryFor_congr {s t : State} {i : Issue} (h : (t.cluster i.cl).pc = (s.cluster i.cl).pc) (op : Nat) (w : Bool)
    (b : Nat) : t.entryFor i op w b = s.entryFor i op w b := by
  rw [State.entryFor, h, State.entryFor]

/-- The status that the headers of both operands give together: a poisoned line, E = 255, a skewed tag (R203, R472). -/
def worstHeader (a b : Nat) : Nat :=
  if a = 0x0702 || b = 0x0702 then 0x0702 else if a = 0x0204 || b = 0x0204 then 0x0204
  else if a = 0x0201 || b = 0x0201 then 0x0201 else 0

/-- The stationary operand of an MM-family instruction: header status, tile to be active, reserved codes decoded. -/
def State.mmStationary (s : State) (orient : Nat) (i : Issue) (f : MmF) : Nat × Option Tile × Nat :=
  if f.keep then (0, ((s.cluster i.cl).arr f.array).tile (s.streamOf i.cl f.array f.stream), 0)
  else
    let l := s.loadTile orient i f
    (l.1, if l.1 = 0 then some l.2.1 else none, l.2.2)

/-- The streamed bricks that descriptor and origin in `c` name, in MM.W reduction by vector (R111). -/
def State.mmStreamed (s : State) (c : Cluster) (orient : Nat) (f : MmF) : Nat × List Brick × Nat :=
  let xd := c.desc f.xdesc
  let o := originOf c f.xreg xd.rank
  if orient = 2 then s.readBricks xd (strmRole orient) o (f.dm1 + 1) (f.vm1 + 1)
  else s.readBricks xd (strmRole orient) o (f.vm1 + 1) (f.dm1 + 1)

/-- What is left of an MM-family instruction once its operands, `ld` and `xr`, have been read. -/
def State.mmDeliver (s : State) (op orient : Nat) (i : Issue) (f : MmF) (ld : Nat × Option Tile × Nat)
    (xr : Nat × List Brick × Nat) : State :=
  let c := s.cluster i.cl
  let w := s.streamOf i.cl f.array f.stream
  let xd := c.desc f.xdesc
  let bad := worstHeader ld.1 xr.1
  let t := (s.setCluster i.cl (c.setArr f.array ((c.arr f.array).setTile w ld.2.1))).addReserved (i.cl / 16)
    (ld.2.2 + if ld.1 ≠ 0 || bad = 0x0204 then 0 else xr.2.2)
  let e := { t.entryFor i op w f.chain with
    newRun := !f.keep, waitsTile := !f.keep, carries := true
    dies := s.dev.part.diesOf (xd :: if f.keep then [] else [c.desc f.sdesc]) }
  if bad = 0x0201 then t.push i.cl (f.array + 1) { e with poison := bad }
  else if bad ≠ 0 then t.mmFail op i f bad
  else
    match ld.2.1 with
    | none => t.mmFail op i f 0x0104
    | some tile => t.push i.cl (f.array + 1) { e with
        rows := products orient xd.ty tile.fmt (16 * (f.vm1 + 1)) (f.dm1 + 1) ((c.arr f.array).chain f.chain).pair xr.2.1 tile.bricks }

theorem State.sameReads.mmStreamed {s t : State} (h : s.sameReads t) (c : Cluster) (orient : Nat) (f : MmF) :
    t.mmStreamed c orient f = s.mmStreamed c orient f := by
  simp only [State.mmStreamed, h.readBricks]

/-- An instruction that passes its checks reads both operands in the state it finds: that the tile becomes active between
the two reads is nothing that the second one looks at. -/
theorem State.mmIssue_of_checked (s : State) (op : Nat) {orient : Nat} {i : Issue} {f : MmF} (h : s.mmCheck orient i f = 0) :
    s.mmIssue op orient i f =
      s.mmDeliver op orient i f (s.mmStationary orient i f) (s.mmStreamed (s.cluster i.cl) orient f) := by
  rw [← (s.sameReads_setTile i.cl f.array (s.streamOf i.cl f.array f.stream) (s.mmStationary orient i f).2.1).mmStreamed]
  unfold State.mmIssue
  exact if_neg fun hn => hn h

theorem State.mmIssue_of_refused (s : State) (op : Nat) {orient : Nat} {i : Issue} {f : MmF} (h : s.mmCheck orient i f ≠ 0) :
    s.mmIssue op orient i f = s.mmFail op i f (s.mmCheck orient i f) := by
  unfold State.mmIssue
  exact if_pos h

/-! #### Its outcomes -/

theorem State.activates.entryFor {s t : State} {i : Issue} {k : Nat} {w : Bool} {x : Option Tile}
    (h : s.activates t i.cl k w x) (op : Nat) (v : Bool) (b : Nat) : t.entryFor i op v b = s.entryFor i op v b :=
  State.entryFor_congr h.issue.pc op v b

/-- A failed instruction joins the queue with its status; a fault of its descriptors is recorded beside (R206). -/
theorem State.activates.mmFail {s t : State} {i : Issue} {f : MmF} {w : Bool} {x : Option Tile}
    (h : s.activates t i.cl f.array w x) (hf : f.array < 3) (op st : Nat) :
    s.joins (t.mmFail op i f st) i.cl f.array w x
      { s.entryFor i op f.stream f.chain with status := st, parity := st = 0x0702 } := by
  rw [← h.entryFor]
  exact (h.sameWork (t.sameWork_free.trans (State.sameWork_descFault _ _ _ _))).push hf rfl

/-- Both operands have been read: the tile is active, and the reserved codes are counted. -/
theorem State.activates_read (s : State) (cl : ClusterId) {k : Nat} (hk : k < 3) (w : Bool) (x : Option Tile) (die n : Nat) :
    s.activates ((s.setCluster cl ((s.cluster cl).setArr k (((s.cluster cl).arr k).setTile w x))).addReserved die n) cl k w x :=
  (s.activates_setTile cl hk w x).sameWork (State.sameWork_addReserved _ _ _)

section
variable (s : State) (op orient : Nat) (i : Issue) (f : MmF) (ld : Nat × Option Tile × Nat) (xr : Nat × List Brick × Nat)

/-- R203: an operand that cannot be decoded. -/
theorem State.mmDeliver_of_invalid (hf : f.array < 3) (h : worstHeader ld.1 xr.1 ≠ 0) (h' : worstHeader ld.1 xr.1 ≠ 0x0201) :
    s.joins (s.mmDeliver op orient i f ld xr) i.cl f.array (s.streamOf i.cl f.array f.stream) ld.2.1
      { s.entryFor i op f.stream f.chain with
        status := worstHeader ld.1 xr.1, parity := worstHeader ld.1 xr.1 = 0x0702 } := by
  unfold State.mmDeliver
  dsimp only
  rw [if_neg h', if_pos h]
  exact (s.activates_read i.cl hf _ _ _ _).mmFail hf _ _

/-- R204: a skewed tag, whose chain is poisoned at the instruction's turn. -/
theorem State.mmDeliver_of_skewed (hf : f.array < 3) (h : worstHeader ld.1 xr.1 = 0x0201) :
    s.joins (s.mmDeliver op orient i f ld xr) i.cl f.array (s.streamOf i.cl f.array f.stream) ld.2.1
      { s.entryFor i op (s.streamOf i.cl f.array f.stream) f.chain with
        poison := 0x0201, newRun := !f.keep, waitsTile := !f.keep, carries := true } := by
  unfold State.mmDeliver
  dsimp only
  rw [if_pos h, h]
  have ht := s.activates_read i.cl hf (s.streamOf i.cl f.array f.stream) ld.2.1
  refine (ht _ _).push hf ?_
  rw [(ht _ _).entryFor]

/-- R102: both operands are sound. -/
theorem State.mmDeliver_of_sound (hf : f.array < 3) (h : worstHeader ld.1 xr.1 = 0) {tile : Tile} (htile : ld.2.1 = some tile) :
    s.joins (s.mmDeliver op orient i f ld xr) i.cl f.array (s.streamOf i.cl f.array f.stream) (some tile)
      { s.entryFor i op (s.streamOf i.cl f.array f.stream) f.chain with
        rows := products orient ((s.cluster i.cl).desc f.xdesc).ty tile.fmt (16 * (f.vm1 + 1)) (f.dm1 + 1)
          (((s.cluster i.cl).arr f.array).chain f.chain).pair xr.2.1 tile.bricks
        newRun := !f.keep, waitsTile := !f.keep, carries := true } := by
  unfold State.mmDeliver
  dsimp only
  rw [h, htile, if_neg (by decide), if_neg (by decide)]
  have ht := s.activates_read i.cl hf (s.streamOf i.cl f.array f.stream) (some tile)
  refine (ht _ _).push hf ?_
  rw [(ht _ _).entryFor]

end

/-! #### The three rows -/

theorem State.racing_of_released {s : State} {cl unit : Nat} (h : s.unreleased cl unit = []) (f : State → State) :
    s.racing cl unit f = f s := by
  rw [State.racing, h]
  rfl

theorem MmF.array_lt_of_wf {f : MmF} (h : f.wf = true) : f.array < 3 := by
  simp only [MmF.wf, Bool.and_eq_true, decide_eq_true_eq] at h
  omega

/-- The rows MM, MM.T and MM.W, with the opcode and the orientation of each. -/
def mmFamily (i : Issue) (f : MmF) : List (Instr × Nat × Nat) := [(.mm i f, 0x10, 0), (.mmT i f, 0x11, 1), (.mmW i f, 0x12, 2)]

/-- The rows differ in opcode and orientation alone, but that backward work waits for forward work (R119). -/
theorem exec_of_mem_mmFamily {c : Instr} {op orient : Nat} {i : Issue} {f : MmF} (hc : (c, op, orient) ∈ mmFamily i f) (s : State) :
    exec c s = guarded (s.canIssue i.cl (TileWord.mm op i f) && s.room i.cl (f.array + 1) && (op = 0x10 || s.forwardOver i.cl)) s
      (s.racing i.cl (f.array + 1) fun s => s.mmIssue op orient i f) := by
  simp only [mmFamily, List.mem_cons, Prod.mk.injEq, List.not_mem_nil, or_false] at hc
  obtain ⟨rfl, rfl, rfl⟩ | ⟨rfl, rfl, rfl⟩ | ⟨rfl, rfl, rfl⟩ := hc
  · show guarded _ _ _ = _
    simp
  · rfl
  · rfl

theorem array_lt_of_mem_mmFamily {c : Instr} {op orient : Nat} {i : Issue} {f : MmF} (hc : (c, op, orient) ∈ mmFamily i f)
    (hw : c.wf = true) : f.array < 3 := by
  simp only [mmFamily, List.mem_cons, Prod.mk.injEq, List.not_mem_nil, or_false] at hc
  obtain ⟨rfl, -⟩ | ⟨rfl, -⟩ | ⟨rfl, -⟩ := hc
  all_goals exact MmF.array_lt_of_wf (Bool.and_eq_true _ _ ▸ hw).2

theorem worstHeader_eq (a b : Nat) : worstHeader a b =
    if a = 0x0702 ∨ b = 0x0702 then 0x0702 else if a = 0x0204 ∨ b = 0x0204 then 0x0204
    else if a = 0x0201 ∨ b = 0x0201 then 0x0201 else 0 := by
  simp only [worstHeader, Bool.or_eq_true, decide_eq_true_eq]

theorem State.mmStreamed_eq (s : State) (c : Cluster) (orient : Nat) (f : MmF) : s.mmStreamed c orient f =
    s.readBricks (c.desc f.xdesc) (if orient = 2 then 2 else 1) (originOf c f.xreg (c.desc f.xdesc).rank)
      (if orient = 2 then f.dm1 + 1 else f.vm1 + 1) (if orient = 2 then f.vm1 + 1 else f.dm1 + 1) := by
  by_cases h : orient = 2 <;> simp [State.mmStreamed, strmRole, h]

theorem State.mmStationary_status (s : State) (orient : Nat) (i : Issue) (f : MmF) :
    (s.mmStationary orient i f).1 = if f.keep then 0 else (s.loadTile orient i f).1 := by
  unfold State.mmStationary
  split <;> rfl

theorem State.mmStationary_tile (s : State) (orient : Nat) (i : Issue) (f : MmF) :
    (s.mmStationary orient i f).2.1 =
      if f.keep then ((s.cluster i.cl).arr f.array).tile (s.streamOf i.cl f.array f.stream)
      else if (s.mmStationary orient i f).1 = 0 then some (s.loadTile orient i f).2.1 else none := by
  unfold State.mmStationary
  split <;> rfl

theorem State.readBricks_status (s : State) (d : Desc) (role : Nat) (o : List Int) (rows cols : Nat) :
    (s.readBricks d role o rows cols).1 ∈ [0x0702, 0x0204, 0x0201, 0] := by
  unfold State.readBricks
  dsimp only
  split
  · decide
  split
  · decide
  split <;> decide

theorem State.loadTile_status (s : State) (orient : Nat) (i : Issue) (f : MmF) :
    (s.loadTile orient i f).1 ∈ [0x0702, 0x0204, 0x0201, 0] := by
  unfold State.loadTile
  dsimp only
  split
  all_goals exact State.readBricks_status ..

theorem ne_of_worstHeader_eq_zero {a b : Nat} (h : worstHeader a b = 0) : a ≠ 0x0702 ∧ a ≠ 0x0204 ∧ a ≠ 0x0201 := by
  rw [worstHeader_eq] at h
  split at h
  · cases h
  next h1 =>
  split at h
  · cases h
  next h2 =>
  split at h
  · cases h
  next h3 =>
  exact ⟨fun e => h1 (.inl e), fun e => h2 (.inl e), fun e => h3 (.inl e)⟩

theorem State.mmStationary_sound {s : State} {orient : Nat} {i : Issue} {f : MmF} {b : Nat}
    (h : worstHeader (s.mmStationary orient i f).1 b = 0) : (s.mmStationary orient i f).1 = 0 := by
  have hl : (s.mmStationary orient i f).1 ∈ [0x0702, 0x0204, 0x0201, 0] := by
    rw [State.mmStationary_status]
    split
    · decide
    · exact s.loadTile_status orient i f
  simp only [List.mem_cons, List.not_mem_nil, or_false] at hl
  obtain ⟨h1, h2, h3⟩ := ne_of_worstHeader_eq_zero h
  exact ((hl.resolve_left h1).resolve_left h2).resolve_left h3

/-- Settles O14: an instruction that fails its checks only joins its queue; one that passes them makes its tile active, and
the worst header of its two operands says which entry joins the queue. -/
theorem arrayProducts : Obligations.ArrayProducts := by
  unfold Obligations.ArrayProducts
  intro c op orient i f s hc hwf hissue hroom hfree
  have hf := array_lt_of_mem_mmFamily hc hwf
  have hexec := exec_of_mem_mmFamily hc s
  rw [hissue, hroom, State.racing_of_released hfree] at hexec
  refine ⟨fun hop hwait => ?_, fun hgo => ?_⟩
  · rw [hexec]
    exact guarded_false _ _ (by simp [hop, hwait])
  rw [guarded_true _ _ (by simpa using hgo)] at hexec
  rw [hexec]
  intro k a w xd vb n x load bad fails
  have hld : (s.mmStationary orient i f).1 = load := s.mmStationary_status orient i f
  have hx : s.mmStreamed k orient f = x := s.mmStreamed_eq k orient f
  have hbad : worstHeader (s.mmStationary orient i f).1 (s.mmStreamed k orient f).1 = bad := by
    rw [worstHeader_eq, hld, hx]
  have htile : (s.mmStationary orient i f).2.1 =
      if f.keep then a.tile w else if load = 0 then some (s.loadTile orient i f).2.1 else none := by
    rw [← hld]; exact s.mmStationary_tile orient i f
  refine ⟨fun hcheck => ⟨_, rfl, ?_⟩, fun hcheck hne => ⟨_, rfl, ?_⟩, fun hcheck hz tile ht => ⟨_, rfl, ?_⟩⟩
  · rw [s.mmIssue_of_refused op hcheck]
    obtain ⟨hbytes, hchains, htile, he⟩ := (State.activates.refl s i.cl f.array w).mmFail hf op (s.mmCheck orient i f)
    exact ⟨he, hbytes, hchains, htile⟩
  · rw [s.mmIssue_of_checked op hcheck]
    by_cases hskew : bad = 0x0201
    · obtain ⟨hbytes, hchains, ht, he⟩ := s.mmDeliver_of_skewed op orient i f _ _ hf (hbad.trans hskew)
      exact ⟨hbytes, hchains, ht.trans htile, fun h => absurd hskew h, fun _ => hskew ▸ he⟩
    · obtain ⟨hbytes, hchains, ht, he⟩ := s.mmDeliver_of_invalid op orient i f _ _ hf (hbad ▸ hne) (hbad ▸ hskew)
      exact ⟨hbytes, hchains, ht.trans htile, fun _ => hbad ▸ he, fun h => absurd h hskew⟩
  · rw [s.mmIssue_of_checked op hcheck]
    have hsound : load = 0 := hld ▸ State.mmStationary_sound (hbad.trans hz)
    rw [if_pos hsound, ht] at htile
    obtain ⟨hbytes, hchains, ht, he⟩ := s.mmDeliver_of_sound op orient i f _ _ hf (hbad.trans hz) htile
    exact ⟨hbytes, ht, hchains, hx ▸ he⟩

end Sys2Proof.Machine

/-! ### A drain whose quantizer record lies in a poisoned line (R472, R477)

The record is read by the checks, so that they give PARITY_UNRECOVERED; the entry of the drain then says that its status
stands for an unrecovered parity error. -/

namespace Sys2Proof.Machine

def quantIssue : Issue where
  cl := 0
  sigen := false
  sem := 0

/-- A DRAIN of chain 0 of array 0 through descriptor slot 0 and the quantizer record that s2 names. -/
def quantDrain : DrainF where
  array := 0
  chain := 0
  ddesc := 0
  dreg := 0
  qen := true
  qreg := 2
  oen := false
  oslot := 0
  cen := false
  greg := 0
  opidx := 0
  opreg := 0
  sven := false
  svdesc := 0
  svreg := 0
  gsrc := false
  gmode := 0
  vm1 := 0
  gsdesc := 0
  gsreg := 0
  men := false
  mdesc := 0
  mreg := 0

/-- A dense tensor of T2 bricks, 16 rows of 128 columns, in the operand memory of cluster 0. -/
def quantTarget : Nat :=
  2 + tyT2 * 2 ^ 4 + 2 ^ 8 + 3 * 2 ^ 16 + 0x10_0000_0000 * 2 ^ 64 + 0x10_0000_1000 * 2 ^ 104 + 128 * 2 ^ 224 + 16 * 2 ^ 248

/-- A stage over compute die 0 alone. -/
def quantStage : StageCfg where
  dies := [0]
  model := 0
  owner := 0
  fixedCadence := false
  background := false
  split := false
  quantum := 1
  scrubPeriod := 0
  entryTune := 0
  entryServe := 0
  cadPeriod := 0
  cadRows := 64
  ops := []
  qs := []
  heads := []
  maxTrows := 64
  passRec := 0
  shadow := 0
  shadowLen := 0
  runs := []
  paths := []
  digest := []

/-- Cluster 0 runs and comes to the drain; its chain is OPEN, and the line of its quantizer record is poisoned. -/
def poisonedRecord : State :=
  let c : Cluster := { Cluster.init with
    st := .running, imem := [(0, TileWord.drain 0x20 quantIssue quantDrain)], sregs := [(2, 0x10_0000_2000)]
    dslots := [(0, quantTarget)], t0 := Arr.init.setChain 0 { Chain.free with st := 1 } }
  { (State.reset.setStage 0 { Stage.init with cfg := some quantStage }).setCluster 0 c with poison := [0x10_0000_2000] }

theorem poisonedRecord_drainCheck :
    poisonedRecord.drainCheck quantIssue quantDrain (poisonedRecord.drainOps false quantIssue quantDrain) = 0x0702 := by
  decide +kernel

theorem exec_drain_poisonedRecord :
    exec (.drain quantIssue quantDrain) poisonedRecord = .next (poisonedRecord.drainRun 0x20 false quantIssue quantDrain) := by
  show execDrain _ _ _ = _
  exact guarded_true _ _ (by decide +kernel)

theorem poisonedRecord_drainRun_parity :
    ∀ e ∈ (poisonedRecord.drainRun 0x20 false quantIssue quantDrain).unitQueue quantIssue.cl (4 + quantDrain.array),
      e.parity = true := by decide +kernel

/-- Refutes O20: for a drain that fails its checks the statement gives an entry whose PARITY mark is not set, whatever the
status. Where the drain's quantizer record lies in a poisoned line the checks give PARITY_UNRECOVERED, and the entry has the
mark, by which the module replays the step (R472, R477). -/
theorem not_drainResults : ¬ Obligations.DrainResults := by
  unfold Obligations.DrainResults
  intro h
  obtain ⟨-, h⟩ := h (.drain quantIssue quantDrain) 0x20 false quantIssue quantDrain poisonedRecord (by simp)
    (by decide +kernel) (by decide +kernel) (by decide +kernel) (.inr (by decide +kernel)) (by decide +kernel)
  obtain ⟨-, hfails, -⟩ := h (by decide +kernel) (by simp)
  obtain ⟨t, ht, -, -, ⟨x, hx, he⟩, -⟩ := hfails (by rw [poisonedRecord_drainCheck]; decide)
  have hunset : x.parity = false := congrArg Issued.parity he
  obtain rfl := Host.Outcome.next.inj (exec_drain_poisonedRecord.symm.trans ht)
  have hset := poisonedRecord_drainRun_parity x (by rw [hx]; simp)
  rw [hunset] at hset
  cases hset

end Sys2Proof.Machine

/-! ### Layouts of chains, and an instruction that sets chain records (R125, R126, R128)

Which slots a layout takes, what R126 finds in it, and what an array holds once an instruction has set its chain records
and joined its queue. -/

namespace Sys2Proof.Machine

/-! #### Slots and layouts -/

theorem meets_eq_true {x y : List Nat} : meets x y = true ↔ ∃ k ∈ x, k ∈ y := by
  simp [meets]

theorem meets_eq_false {x y : List Nat} : meets x y = false ↔ ∀ k ∈ x, k ∉ y := by
  simp [meets]

theorem Chain.mem_rawSlots {r : Chain} {b k : Nat} :
    k ∈ r.rawSlots b ↔ b ≤ k ∧ k < b + (1 + r.depth) * (if r.pair then 2 else 1) := by
  simp only [Chain.rawSlots, List.mem_map, List.mem_range]
  constructor
  · rintro ⟨x, hx, rfl⟩
    omega
  · rintro ⟨h, h'⟩
    exact ⟨k - b, by omega, by omega⟩

theorem Chain.mem_slots {r : Chain} {b k : Nat} :
    k ∈ r.slots b ↔ k ∈ r.rawSlots b ∨ r.corr = true ∧ k ∈ r.rawSlots r.corrBase := by
  rw [Chain.slots, List.mem_append]
  cases r.corr <;> simp

theorem Arr.owned_iff {a : Arr} {k : Nat} : a.owned k = true ↔ k ∈ a.held 64 := by
  simp [Arr.owned]

/-- A slot past the last one comes first (R126, log 70). -/
theorem layoutOf_of_deep {b : Nat} {r : Chain} {others : List Nat} (h : ∃ k ∈ r.slots b, 63 < k) :
    layoutOf b r others = 0x0203 := by
  rw [layoutOf, if_pos (by simpa using h)]

/-- A slot that another chain holds, or that both trees take. -/
theorem layoutOf_of_hazard {b : Nat} {r : Chain} {others : List Nat} (hd : ∀ k ∈ r.slots b, k ≤ 63)
    (h : (∃ k ∈ r.slots b, k ∈ others) ∨ r.corr = true ∧ ∃ k ∈ r.rawSlots b, k ∈ r.rawSlots r.corrBase) :
    layoutOf b r others = 0x0202 := by
  rw [layoutOf, if_neg (by simpa using hd), if_pos]
  rw [Bool.or_eq_true, Bool.and_eq_true, meets_eq_true, meets_eq_true]
  exact h

theorem layoutOf_of_free {b : Nat} {r : Chain} {others : List Nat} (hd : ∀ k ∈ r.slots b, k ≤ 63)
    (ho : ∀ k ∈ r.slots b, k ∉ others) (hc : r.corr = true → ∀ k ∈ r.rawSlots b, k ∉ r.rawSlots r.corrBase) :
    layoutOf b r others = 0 := by
  rw [layoutOf, if_neg (by simpa using hd), if_neg]
  rw [Bool.or_eq_true, Bool.and_eq_true, meets_eq_true, meets_eq_true]
  rintro (⟨k, hk, hk'⟩ | ⟨hr, k, hk, hk'⟩)
  · exact ho k hk hk'
  · exact hc hr k hk hk'

/-- A layout that R126 accepts takes no slot of the others, and none twice. -/
theorem layoutOf_eq_zero {b : Nat} {r : Chain} {others : List Nat} (h : layoutOf b r others = 0) :
    (∀ k ∈ r.slots b, k ∉ others) ∧ (r.corr = true → ∀ k ∈ r.rawSlots b, k ∉ r.rawSlots r.corrBase) := by
  unfold layoutOf at h
  split at h
  · cases h
  split at h
  · cases h
  next hmeets =>
  simpa [meets] using hmeets

/-! #### An array whose chain records have been set -/

@[simp] theorem Arr.queue_setChain (a : Arr) (b : Nat) (r : Chain) : (a.setChain b r).queue = a.queue := rfl

@[simp] theorem State.chainOf_push_array (s : State) (cl : ClusterId) {t : Nat} (e : Issued) (ht : t < 3) (b : Nat) :
    (s.push cl (t + 1) e).chainOf cl t b = s.chainOf cl t b := by
  rw [State.chainOf, State.arr_push_array s cl e ht]
  rfl

theorem State.chainOf_setArr (s : State) (cl : ClusterId) (t : Nat) (a : Arr) (b : Nat) :
    (s.setCluster cl ((s.cluster cl).setArr t a)).chainOf cl t b = a.chain b := by
  rw [State.chainOf, State.setCluster_self, Cluster.arr_setArr_self]

/-- An array keeps its queue: no unit holds another instruction. -/
theorem State.sameIssue_setArr (s : State) (cl : ClusterId) {t : Nat} (ht : t < 3) {a : Arr}
    (ha : a.queue = ((s.cluster cl).arr t).queue) : s.sameIssue (s.setCluster cl ((s.cluster cl).setArr t a)) cl where
  queues u hu hu' := by
    refine State.unitQueue_congr ⟨hu, hu'⟩ (fun k hk _ => ?_) (by simp) (by simp) rfl rfl
    by_cases h : k = t
    · rw [h, State.setCluster_self, Cluster.arr_setArr_self, ha]
    · rw [State.setCluster_self, Cluster.arr_setArr_other _ _ ht hk h]
  pc := by simp
  others _ hk := State.setCluster_other _ _ _ hk

/-- An ACC-family entry joins in a state that holds the instructions of `s`. -/
theorem State.sameIssue.issued_accEntry {s r : State} {i : Issue} (h : s.sameIssue r i.cl) {f : AccF} (hf : f.array < 3)
    (hsplit : r.split i.cl = s.split i.cl) (op st : Nat) (par : Bool) (slots : List Nat) :
    s.issued (r.accEntry op i f st par slots) i.cl (f.array + 1)
      { s.entryFor i op (f.stream && s.split i.cl && f.array ≠ 0) f.base with status := st, parity := par, slots := slots } := by
  refine h.issued_push hf ?_
  rw [State.entryFor_congr h.pc, State.streamOf, hsplit]

theorem AccF.array_lt_of_wf {f : AccF} (h : f.wf = true) : f.array < 3 := by
  simp only [AccF.wf, Bool.and_eq_true, decide_eq_true_eq] at h
  omega

theorem wf_of_issue_wf {i : Issue} {b : Bool} (h : (i.wf && b) = true) : b = true := (Bool.and_eq_true _ _ ▸ h).2

/-! #### ACC.OPEN (R125, R126, R238) -/

theorem State.accOpen_eq (s : State) (i : Issue) (f : AccF) {st : Nat}
    (h : layoutOf f.base (accRecord f) (((s.cluster i.cl).arr f.array).held 64) = st) :
    s.accOpen i f = (if st = 0 then
        s.setCluster i.cl ((s.cluster i.cl).setArr f.array (((s.cluster i.cl).arr f.array).setChain f.base (accRecord f)))
      else s).accEntry 0x18 i f st false := by
  subst h
  rfl

/-- Settles O17, by what R126 finds in the layout: too deep, taken, or free, when the chain's record is set. -/
theorem chainOpen : Obligations.ChainOpen := by
  unfold Obligations.ChainOpen
  intro i f s a w per raw corr deep hazard gives hwf hissue hroom
  have hf : f.array < 3 := AccF.array_lt_of_wf (wf_of_issue_wf hwf)
  have hexec : exec (.accOpen i f) s = guarded (s.inOrder i.cl f.array f.stream) s (s.accOpen i f) := by
    show guarded (_ && _ && _) s _ = _
    rw [hissue, hroom, Bool.and_self, Bool.true_and]
  refine ⟨fun h => hexec.trans (guarded_false _ _ h), fun horder => ?_⟩
  rw [guarded_true _ _ horder] at hexec
  have hraw (k : Nat) : k ∈ (accRecord f).rawSlots f.base ↔ raw k := Chain.mem_rawSlots
  have hcorr (k : Nat) : ((accRecord f).corr = true ∧ k ∈ (accRecord f).rawSlots (accRecord f).corrBase) ↔ corr k := by
    refine and_congr_right fun (hc : f.corr = true) => ?_
    rw [Chain.mem_rawSlots, accRecord, if_pos hc]
  have hslots (k : Nat) : k ∈ (accRecord f).slots f.base ↔ raw k ∨ corr k := by
    rw [Chain.mem_slots, hraw, hcorr]
  -- a layout that is refused leaves every record
  have refused (st : Nat) (hne : st ≠ 0) (h : layoutOf f.base (accRecord f) (a.held 64) = st) : gives st (a.chain f.base) := by
    refine ⟨_, hexec, ?_⟩
    rw [s.accOpen_eq i f h, if_neg hne]
    exact ⟨fun x => State.readByte_push_array _ _ _ hf x,
      ((State.sameWork.refl s).sameIssue i.cl).issued_accEntry hf rfl 0x18 st false [],
      State.chainOf_push_array _ _ _ hf _, fun b _ => State.chainOf_push_array _ _ _ hf b⟩
  refine ⟨fun hdeep => refused _ (by decide) (layoutOf_of_deep ?_), fun hdeep hhaz => refused _ (by decide) (layoutOf_of_hazard ?_ ?_),
    fun hdeep hhaz => ⟨_, hexec, ?_⟩⟩
  · obtain ⟨k, hk, hk'⟩ := hdeep
    exact ⟨k, (hslots k).mpr hk, hk'⟩
  · exact fun k hk => Nat.le_of_not_lt fun h => hdeep ⟨k, (hslots k).mp hk, h⟩
  · obtain ⟨k, ⟨hk, hk'⟩ | ⟨hk, hk'⟩⟩ := hhaz
    · exact .inr ⟨hk'.1, k, (hraw k).mpr hk, ((hcorr k).mpr hk').2⟩
    · exact .inl ⟨k, (hslots k).mpr hk, Arr.owned_iff.mp hk'⟩
  · have hfree : layoutOf f.base (accRecord f) (a.held 64) = 0 := by
      refine layoutOf_of_free (fun k hk => Nat.le_of_not_lt fun h => hdeep ⟨k, (hslots k).mp hk, h⟩) (fun k hk h => ?_)
        fun hc k hk h => ?_
      · exact hhaz ⟨k, .inr ⟨(hslots k).mp hk, Arr.owned_iff.mpr h⟩⟩
      · exact hhaz ⟨k, .inl ⟨(hraw k).mp hk, (hcorr k).mp ⟨hc, h⟩⟩⟩
    rw [s.accOpen_eq i f hfree, if_pos rfl]
    refine ⟨fun x => State.readByte_push_array _ _ _ hf x,
      (s.sameIssue_setArr i.cl hf (Arr.queue_setChain _ _ _)).issued_accEntry hf rfl 0x18 0 false [], ?_, fun b hb => ?_⟩
    · refine (State.chainOf_push_array _ _ _ hf _).trans ?_
      rw [State.chainOf_setArr, Arr.setChain_self]
      rfl
    · refine (State.chainOf_push_array _ _ _ hf _).trans ?_
      rw [State.chainOf_setArr, Arr.setChain_other _ _ _ hb]
      rfl

/-! #### ACC.RELEASE, and writes of chain records (R128, R146, R238) -/

theorem Arr.recordOk_iff (a : Arr) (used : List Nat) (b n : Nat) : a.recordOk used b n = true ↔
    a.busyOn ((a.chain b).slots b ++ (Chain.ofWord n).slots b) = false ∧
    (∀ k ∈ used, k ∉ (a.chain b).slots b ++ (Chain.ofWord n).slots b) ∧ layoutOf b (Chain.ofWord n) (a.held b) = 0 ∧
    (Chain.ofWord n).occ < 2 ^ ((Chain.ofWord n).depth + 1) ∧ (Chain.ofWord n).st ≠ 3 := by
  simp only [Arr.recordOk, Bool.and_eq_true, Bool.not_eq_true', decide_eq_true_eq, meets_eq_false, and_assoc]

theorem Arr.writeRecord_of_ok {a : Arr} {used : List Nat} {b n : Nat} (h : a.recordOk used b n = true) :
    a.writeRecord used b n = a.setChain b (Chain.ofWord n) := if_pos h

theorem Arr.writeRecord_of_refused {a : Arr} {used : List Nat} {b n : Nat} (h : ¬ a.recordOk used b n = true) :
    a.writeRecord used b n = a := if_neg h

theorem Arr.chain_writeRecord_other (a : Arr) (used : List Nat) {b k : Nat} (n : Nat) (h : k ≠ b) :
    (a.writeRecord used b n).chain k = a.chain k := by
  unfold Arr.writeRecord
  split
  · exact Arr.setChain_other _ _ _ h
  · rfl

/-- The row for one record, on a die that runs. -/
theorem exec_chainRecordWrite_one (s : State) (cl : ClusterId) (array b n : Nat)
    (hdie : s.dev.part.hasDie (cl / 16) = true) (hrun : s.diesRun = true) :
    exec (.chainRecordWrite cl array [(b, n)]) s = .next
      ((s.setCluster cl ((s.cluster cl).setArr array (((s.cluster cl).arr array).writeRecord (s.windowed cl array) b n))).send
        (.recordStatus (if ((s.cluster cl).arr array).recordOk (s.windowed cl array) b n then 0 else 0x0202))) := by
  show guarded _ s _ = _
  rw [guarded_true _ _ (by rw [hdie, hrun]; rfl)]
  cases h : ((s.cluster cl).arr array).recordOk (s.windowed cl array) b n <;>
    simp [sortPairs, insertPair, writeRecords, h]

/-- Settles O19: ACC.RELEASE sets its record and joins its queue; a chain record is set where R128 accepts it. -/
theorem chainReleaseAndRecords : Obligations.ChainReleaseAndRecords := by
  unfold Obligations.ChainReleaseAndRecords
  refine fun s => ⟨fun i f hwf hissue hroom hquiet horder => ?_, fun cl array b n _ => ?_⟩
  · have hf : f.array < 3 := AccF.array_lt_of_wf (wf_of_issue_wf hwf)
    have hexec : exec (.accRelease i f) s = .next (s.accRelease i f) :=
      guarded_true _ _ (by rw [hissue, hroom, hquiet, horder]; rfl)
    refine ⟨_, hexec, fun x => State.readByte_push_array _ _ _ hf x,
      (s.sameIssue_setArr i.cl hf (Arr.queue_setChain _ _ _)).issued_accEntry hf rfl 0x1A 0 false [], ?_, fun k hk => ?_⟩
    · refine (State.chainOf_push_array _ _ _ hf _).trans ?_
      rw [State.chainOf_setArr, Arr.setChain_self]
    · refine (State.chainOf_push_array _ _ _ hf _).trans ?_
      rw [State.chainOf_setArr, Arr.setChain_other _ _ _ hk]
      rfl
  · intro a r cover ok hdie hrun
    have hok : a.recordOk (s.windowed cl array) b n = true ↔ ok := Arr.recordOk_iff ..
    have hchain (k : Nat) (o : Out) (a' : Arr) :
        ((s.setCluster cl ((s.cluster cl).setArr array a')).send o).chainOf cl array k = a'.chain k := s.chainOf_setArr ..
    refine ⟨_, exec_chainRecordWrite_one s cl array b n hdie hrun, fun _ => rfl, fun k hk => ?_, fun h => ⟨?_, ?_⟩, fun h => ⟨?_, ?_⟩⟩
    · rw [hchain, Arr.chain_writeRecord_other _ _ _ hk]
      rfl
    · rw [hchain, Arr.writeRecord_of_ok (hok.mpr h), Arr.setChain_self]
    · rw [if_pos (hok.mpr h)]
      rfl
    · rw [hchain, Arr.writeRecord_of_refused fun h' => h (hok.mp h')]
    · rw [if_neg fun h' => h (hok.mp h')]
      rfl

end Sys2Proof.Machine

/-! ### The levels of a tree in accumulator memory (R123, R129)

A row of a level is one row of a slot, or of two in pair mode. A write of one changes that row of that level alone, and no
byte outside the slots of its tree. -/

namespace Sys2Proof.Machine

/-! #### Writes of memory leave every cluster -/

@[simp] theorem State.cluster_writeByte (s : State) (a : Nat) (b : Byte) (k : Nat) :
    (s.writeByte a b).cluster k = s.cluster k := by
  unfold State.writeByte; split <;> rfl

@[simp] theorem State.cluster_writeBytes (s : State) (a : Nat) (b : Bytes) (k : Nat) :
    (s.writeBytes a b).cluster k = s.cluster k := by
  induction b generalizing s a with
  | nil => rfl
  | cons x r ih => rw [State.writeBytes, ih, State.cluster_writeByte]

@[simp] theorem State.cluster_unpoison (s : State) (a n k : Nat) : (s.unpoison a n).cluster k = s.cluster k := by
  unfold State.unpoison; dsimp only; split <;> rfl

/-! #### Runs of words -/

/-- A run of 32-bit words, written whole. -/
def State.putWords (s : State) (a : Nat) (l : List (BitVec 32)) : State :=
  (s.writeBytes a (l.flatMap fun x => toBytes 4 x.toNat)).unpoison a (4 * l.length)

theorem length_flatMap_toBytes (l : List (BitVec 32)) : (l.flatMap fun x => toBytes 4 x.toNat).length = 4 * l.length := by
  induction l with
  | nil => rfl
  | cons x r ih => rw [List.flatMap_cons, List.length_append, length_toBytes, ih, List.length_cons]; omega

theorem State.writeBytes_append (s : State) (a : Nat) (x y : Bytes) :
    s.writeBytes a (x ++ y) = (s.writeBytes a x).writeBytes (a + x.length) y := by
  induction x generalizing s a with
  | nil => rfl
  | cons b r ih => rw [List.cons_append, State.writeBytes, ih, State.writeBytes, List.length_cons, Nat.add_right_comm, Nat.add_assoc]

theorem State.readByte_putWords_outside (s : State) {a k : Nat} {l : List (BitVec 32)} (h : k < a ∨ a + 4 * l.length ≤ k) :
    (s.putWords a l).readByte k = s.readByte k := by
  rw [State.putWords, State.readByte_unpoison, State.readByte_writeBytes_outside _ _ _ (by rwa [length_flatMap_toBytes])]

/-- A word of a run is read back. -/
theorem State.readLE_putWords (s : State) (a : Nat) {l : List (BitVec 32)} {n : Nat} (h : n < l.length) :
    (s.putWords a l).readLE (a + 4 * n) 4 = (l[n]).toNat := by
  rw [State.putWords, State.readLE_congr _ _ fun k _ _ => State.readByte_unpoison ..]
  induction l generalizing s a n with
  | nil => cases h
  | cons x r ih =>
    rw [List.flatMap_cons, State.writeBytes_append, length_toBytes]
    cases n with
    | zero =>
      rw [State.readLE_congr _ _ fun k _ _ => State.readByte_writeBytes_outside _ _ _ (.inl (by omega))]
      exact (State.readLE_writeLE s a 4 x.toNat).trans (Nat.mod_eq_of_lt x.isLt)
    | succ n =>
      rw [show a + 4 * (n + 1) = a + 4 + 4 * n by omega]
      exact ih _ _ (Nat.lt_of_succ_lt_succ h)

/-! #### Rows of slots -/

/-- A word of a slot. -/
def State.slotVal (s : State) (cl t slot row n : Nat) : BitVec 32 := word32 (s.readLE (slotWord cl t slot row n) 4)

/-- A row of a slot, written whole. -/
def State.putRow (s : State) (cl t slot row : Nat) (l : List (BitVec 32)) : State := s.putWords (slotWord cl t slot row 0) l

theorem slotWord_eq (cl t slot row n : Nat) : slotWord cl t slot row n = slotWord cl t slot 0 0 + (0x200 * row + 4 * n) := by
  unfold slotWord; omega

/-- Slots lie apart, 64 KiB each. -/
theorem slotWord_apart {slot slot' : Nat} (h : slot ≠ slot') (cl t : Nat) :
    slotWord cl t slot 0 0 + 0x1_0000 ≤ slotWord cl t slot' 0 0 ∨ slotWord cl t slot' 0 0 + 0x1_0000 ≤ slotWord cl t slot 0 0 := by
  unfold slotWord; omega

theorem State.level_eq (s : State) (cl t b : Nat) (r : Chain) (k row n : Nat) : s.level cl t b r k row n =
    (s.slotVal cl t (b + k) row n, if r.pair then s.slotVal cl t (b + r.depth + 1 + k) row n else 0) := rfl

section
variable (s : State) (cl t : Nat) {slot row : Nat} {l : List (BitVec 32)}

theorem State.readByte_putRow_outside (hl : l.length = 128) (hrow : row < 128) {x : Nat}
    (hx : x < slotWord cl t slot 0 0 ∨ slotWord cl t slot 0 0 + 0x1_0000 ≤ x) :
    (s.putRow cl t slot row l).readByte x = s.readByte x := by
  have hw := slotWord_eq cl t slot row 0
  exact State.readByte_putWords_outside _ (by omega)

theorem State.slotVal_putRow_self (hl : l.length = 128) {n : Nat} (hn : n < 128) :
    (s.putRow cl t slot row l).slotVal cl t slot row n = l[n]'(hl ▸ hn) := by
  have hw := slotWord_eq cl t slot row n
  have hw0 := slotWord_eq cl t slot row 0
  rw [State.slotVal, State.putRow, show slotWord cl t slot row n = slotWord cl t slot row 0 + 4 * n by omega,
    State.readLE_putWords _ _ (hl ▸ hn), word32, BitVec.ofNat_toNat, BitVec.setWidth_eq]

theorem State.slotVal_putRow_other (hl : l.length = 128) (hrow : row < 128) {slot' row' n : Nat} (hrow' : row' < 128) (hn : n < 128)
    (h : slot' ≠ slot ∨ row' ≠ row) : (s.putRow cl t slot row l).slotVal cl t slot' row' n = s.slotVal cl t slot' row' n := by
  have hw := slotWord_eq cl t slot row 0
  have hw' := slotWord_eq cl t slot' row' n
  rw [State.slotVal, State.slotVal, State.putRow, State.readLE_congr _ _ fun x _ _ => State.readByte_putWords_outside _ ?_]
  by_cases hs : slot' = slot
  · subst hs
    have : row' ≠ row := h.resolve_left fun hne => hne rfl
    omega
  · have := slotWord_apart hs cl t
    omega

end

/-- A level's row goes into one slot, and in pair mode into a second one. -/
theorem State.setLevel_eq (s : State) (cl t b : Nat) (r : Chain) (k row : Nat) (vals : List Pair) :
    s.setLevel cl t b r k row vals =
      if r.pair then (s.putRow cl t (b + k) row (vals.map (·.1))).putRow cl t (b + r.depth + 1 + k) row (vals.map (·.2))
      else s.putRow cl t (b + k) row (vals.map (·.1)) := by
  simp only [State.setLevel, State.putRow, State.putWords, List.flatMap_map, List.length_map]

theorem Chain.hi_mem_rawSlots (r : Chain) (b : Nat) {k : Nat} (h : k ≤ r.depth) : b + k ∈ r.rawSlots b := by
  rw [Chain.mem_rawSlots]
  split <;> omega

theorem Chain.lo_mem_rawSlots {r : Chain} (b : Nat) {k : Nat} (h : k ≤ r.depth) (hp : r.pair = true) :
    b + r.depth + 1 + k ∈ r.rawSlots b := by
  rw [Chain.mem_rawSlots, if_pos hp]
  omega

/-! #### Writes of one tree -/

/-- A byte of the slots of a tree. -/
def Chain.inTree (r : Chain) (cl t b x : Nat) : Prop :=
  ∃ slot ∈ r.rawSlots b, slotWord cl t slot 0 0 ≤ x ∧ x < slotWord cl t slot 0 0 + 0x1_0000

/-- Nothing but bytes of one tree, and poison with the logs that speak of it, has been written since `s`. -/
structure State.writesTree (s u : State) (cl t b : Nat) (r : Chain) : Prop where
  clusters : ∀ k, u.cluster k = s.cluster k
  bytes : ∀ x, ¬ r.inTree cl t b x → u.readByte x = s.readByte x

theorem State.writesTree.refl (s : State) (cl t b : Nat) (r : Chain) : s.writesTree s cl t b r := ⟨fun _ => rfl, fun _ _ => rfl⟩

theorem State.writesTree.trans {s u w : State} {cl t b : Nat} {r : Chain} (h : s.writesTree u cl t b r)
    (g : u.writesTree w cl t b r) : s.writesTree w cl t b r :=
  ⟨fun k => (g.clusters k).trans (h.clusters k), fun x hx => (g.bytes x hx).trans (h.bytes x hx)⟩

/-- What a tree holds rests on the bytes of its slots. -/
theorem State.level_congr {s u : State} {cl t b : Nat} {r : Chain} (h : ∀ x, r.inTree cl t b x → u.readByte x = s.readByte x)
    {k row n : Nat} (hk : k ≤ r.depth) (hrow : row < 128) (hn : n < 128) :
    u.level cl t b r k row n = s.level cl t b r k row n := by
  have word (slot : Nat) (hs : slot ∈ r.rawSlots b) : u.slotVal cl t slot row n = s.slotVal cl t slot row n := by
    have hw := slotWord_eq cl t slot row n
    rw [State.slotVal, State.readLE_congr _ _ fun x _ _ => h x ⟨slot, hs, by omega, by omega⟩, State.slotVal]
  rw [State.level_eq, State.level_eq, word _ (r.hi_mem_rawSlots b hk)]
  cases hp : r.pair with
  | false => simp only [Bool.false_eq_true, if_false]
  | true => simp only [if_true, word _ (Chain.lo_mem_rawSlots b hk hp)]

/-- A tree that shares no slot with the one written holds what it held. -/
theorem State.writesTree.level_other {s u : State} {cl t b b' : Nat} {r r' : Chain} (h : s.writesTree u cl t b r)
    (hd : ∀ slot ∈ r'.rawSlots b', slot ∉ r.rawSlots b) {k row n : Nat} (hk : k ≤ r'.depth) (hrow : row < 128) (hn : n < 128) :
    u.level cl t b' r' k row n = s.level cl t b' r' k row n := by
  refine State.level_congr (fun x ⟨slot', hs', hx'⟩ => h.bytes x fun ⟨slot, hs, hx⟩ => ?_) hk hrow hn
  by_cases he : slot' = slot
  · exact hd _ hs' (he ▸ hs)
  · have := slotWord_apart he cl t
    omega

section
variable {s : State} {cl t b : Nat} {r : Chain} {k q row : Nat} {vals : List Pair}

theorem State.writesTree_putRow {slot : Nat} {l : List (BitVec 32)} (hs : slot ∈ r.rawSlots b) (hl : l.length = 128)
    (hrow : row < 128) : s.writesTree (s.putRow cl t slot row l) cl t b r where
  clusters k := by rw [State.putRow, State.putWords, State.cluster_unpoison, State.cluster_writeBytes]
  bytes x hx := State.readByte_putRow_outside s cl t hl hrow (Decidable.byContradiction fun hin =>
    hx ⟨slot, hs, by omega, by omega⟩)

theorem State.writesTree_setLevel (hk : k ≤ r.depth) (hrow : row < 128) (hv : vals.length = 128) :
    s.writesTree (s.setLevel cl t b r k row vals) cl t b r := by
  rw [State.setLevel_eq]
  have hhi (f : Pair → BitVec 32) : (vals.map f).length = 128 := by rw [List.length_map, hv]
  split
  · next hp =>
    exact (State.writesTree_putRow (r.hi_mem_rawSlots b hk) (hhi _) hrow).trans
      (State.writesTree_putRow (Chain.lo_mem_rawSlots b hk hp) (hhi _) hrow)
  · exact State.writesTree_putRow (r.hi_mem_rawSlots b hk) (hhi _) hrow

/-- A value as a tree holds it: without a low part outside pair mode. -/
def normal (pair : Bool) (x : Pair) : Pair := if pair then x else (x.1, 0)

/-- A level reads as it was written, and every other row and level as before. -/
theorem State.level_setLevel (hk : k ≤ r.depth) (hq : q ≤ r.depth) (hv : vals.length = 128) {row' n : Nat} (hrow : row < 128)
    (hrow' : row' < 128) (hn : n < 128) : (s.setLevel cl t b r q row vals).level cl t b r k row' n =
      if k = q ∧ row' = row then normal r.pair (vals[n]'(hv ▸ hn)) else s.level cl t b r k row' n := by
  have hl (f : Pair → BitVec 32) : (vals.map f).length = 128 := by rw [List.length_map, hv]
  rw [State.setLevel_eq, State.level_eq, State.level_eq]
  by_cases hp : r.pair = true
  · simp only [if_pos hp, normal]
    split
    · next h =>
      obtain ⟨rfl, rfl⟩ := h
      rw [State.slotVal_putRow_other _ _ _ (hl _) hrow hrow hn (.inl (by omega)), State.slotVal_putRow_self _ _ _ (hl _) hn,
        State.slotVal_putRow_self _ _ _ (hl _) hn, List.getElem_map, List.getElem_map]
    · next h =>
      rw [State.slotVal_putRow_other _ _ _ (hl _) hrow hrow' hn (by omega), State.slotVal_putRow_other _ _ _ (hl _) hrow hrow' hn (by omega),
        State.slotVal_putRow_other _ _ _ (hl _) hrow hrow' hn (by omega), State.slotVal_putRow_other _ _ _ (hl _) hrow hrow' hn (by omega)]
  · simp only [if_neg hp, normal]
    split
    · next h =>
      obtain ⟨rfl, rfl⟩ := h
      rw [State.slotVal_putRow_self _ _ _ (hl _) hn, List.getElem_map]
    · next h => rw [State.slotVal_putRow_other _ _ _ (hl _) hrow hrow' hn (by omega)]

end

/-! #### Carrying into a level (R129) -/

/-- A value placed at level `k` that comes to rest at level `q`: the levels between are added, the earlier operand on the
left. -/
def carry (pair : Bool) (lv : Nat → Pair) (k q : Nat) (x : Pair) : Pair :=
  (List.range q).foldl (fun x j => if j < k then x else node pair (lv j) x) x

theorem carry_congr {pair : Bool} {lv lv' : Nat → Pair} {k q : Nat} (h : ∀ j, j < q → lv j = lv' j) (x : Pair) :
    carry pair lv k q x = carry pair lv' k q x := by
  have hl : ∀ j ∈ List.range q, lv j = lv' j := fun j hj => h j (List.mem_range.mp hj)
  unfold carry
  revert hl
  induction List.range q generalizing x with
  | nil => exact fun _ => by rw [List.foldl_nil, List.foldl_nil]
  | cons j l ih =>
    intro hl
    simp only [List.foldl_cons, hl j List.mem_cons_self]
    exact ih _ fun i hi => hl i (List.mem_cons_of_mem _ hi)

theorem node_normal (pair : Bool) (a x : Pair) : node pair a (normal pair x) = normal pair (node pair a x) := by
  cases pair <;> rfl

/-- A low part that the tree does not hold has no part in the sums. -/
theorem carry_normal (pair : Bool) (lv : Nat → Pair) (k q : Nat) (x : Pair) :
    carry pair lv k q (normal pair x) = normal pair (carry pair lv k q x) := by
  unfold carry
  induction List.range q generalizing x with
  | nil => rfl
  | cons j l ih =>
    rw [List.foldl_cons, List.foldl_cons, ← ih]
    congr 1
    split
    · rfl
    · exact node_normal pair _ x

theorem normal_level (s : State) (cl t b : Nat) (r : Chain) (k row n : Nat) :
    normal r.pair (s.level cl t b r k row n) = s.level cl t b r k row n := by
  rw [State.level_eq]
  cases r.pair <;> rfl

theorem restLevel_le {occ depth : Nat} : ∀ {fuel k m : Nat}, restLevel occ depth fuel k = some m → m ≤ depth
  | 0, _, _, h => by cases h
  | fuel + 1, k, m, h => by
    rw [restLevel] at h
    split at h
    · cases h
    split at h
    · exact restLevel_le h
    · obtain rfl := Option.some.inj h
      omega

theorem State.insertAt_eq (s : State) (cl t b : Nat) (r : Chain) (k q row : Nat) (vals : List Pair) :
    s.insertAt cl t b r k q row vals = s.setLevel cl t b r q row ((List.range 128).map fun n =>
      carry r.pair (fun j => s.level cl t b r j row n) k q (nth (0, 0) vals n)) := rfl

section
variable {s : State} {cl t b : Nat} {r : Chain} {k q row : Nat} {vals : List Pair}

theorem State.writesTree_insertAt (hq : q ≤ r.depth) (hrow : row < 128) :
    s.writesTree (s.insertAt cl t b r k q row vals) cl t b r := by
  rw [State.insertAt_eq]
  exact State.writesTree_setLevel hq hrow (by rw [List.length_map, List.length_range])

/-- A row placed in a tree comes to rest at its level, carried; every other row and level stays. -/
theorem State.level_insertAt {m : Nat} (hm : m ≤ r.depth) (hq : q ≤ r.depth) {row' n : Nat} (hrow : row < 128)
    (hrow' : row' < 128) (hn : n < 128) : (s.insertAt cl t b r k q row vals).level cl t b r m row' n =
      if m = q ∧ row' = row then carry r.pair (fun j => s.level cl t b r j row n) k q (normal r.pair (nth (0, 0) vals n))
      else s.level cl t b r m row' n := by
  rw [State.insertAt_eq, State.level_setLevel hm hq (by rw [List.length_map, List.length_range]) hrow hrow' hn, carry_normal,
    List.getElem_map, List.getElem_range]

end

end Sys2Proof.Machine

/-! ### The next chunk sum of an array (R97, R129, R143, R204)

Either the instruction fails, with its status and its chain's record, or its row comes to rest in the chain. -/

namespace Sys2Proof.Machine

/-! #### The tile that has loaded (R97) -/

theorem loadFirst_append {before : List Issued} (h : ∀ x ∈ before, x.waitsTile = false) {e : Issued} (he : e.waitsTile = true)
    (after : List Issued) :
    loadFirst (before ++ e :: after) = before ++ { e with waitsTile := false } :: after := by
  induction before with
  | nil => rw [List.nil_append, List.nil_append, loadFirst, if_pos he]
  | cons x l ih =>
    rw [List.cons_append, loadFirst, if_neg (by rw [h x List.mem_cons_self]; decide),
      ih fun y hy => h y (List.mem_cons_of_mem _ hy), List.cons_append]

/-! #### What the instruction that runs leaves -/

theorem Chain.poison_of_open {r : Chain} (h : r.st = 1) (cause : Nat) : r.poison cause = { r with st := 2, cause := cause } :=
  if_pos h

/-- The cluster once the instruction at place `k` of an array's queue has become `e`, and the chain at base `b` the record
`r` in the array `a`. -/
def Cluster.ranOn (c : Cluster) (t k : Nat) (a : Arr) (b : Nat) (r : Chain) (e : Issued) : Cluster :=
  (c.setArr t (a.setChain b r)).setArr t
    { (c.setArr t (a.setChain b r)).arr t with queue := ((c.setArr t (a.setChain b r)).arr t).queue.set k e }

theorem Cluster.arr_ranOn (c : Cluster) (t k : Nat) (a : Arr) (b : Nat) (r : Chain) (e : Issued) :
    (c.ranOn t k a b r e).arr t = { a.setChain b r with queue := a.queue.set k e } := by
  rw [Cluster.ranOn, Cluster.arr_setArr_self, Cluster.arr_setArr_self]
  rfl

section
variable {s : State} {cl t k : Nat} {e : Issued}

/-- The instruction ends with a status, and its chain has the record `r`. -/
def State.insertFails (s : State) (cl t k : Nat) (e : Issued) (st : Nat) (r : Chain) (par : Bool) : State :=
  s.setCluster cl ((s.cluster cl).ranOn t k ((s.cluster cl).arr t) e.base r { e with status := st, parity := par, poison := 0 })

/-- R204: the tag was skewed. -/
theorem State.insertRow_of_skewed (h : e.poison ≠ 0) : (s.insertFails cl t k e e.poison
    ((((s.cluster cl).arr t).chain e.base).poison e.poison) false).sameWork (s.insertRow cl t k e) := by
  unfold State.insertRow
  dsimp only
  rw [if_pos h]
  exact (State.sameWork_free _).trans (State.sameWork_descFault _ _ _ _)

variable (hsound : e.poison = 0)
include hsound

/-- R472: the record cannot be read. -/
theorem State.insertRow_of_lost (h : s.poisoned (chainAddr cl t e.base) 8 = true) :
    s.insertRow cl t k e = s.insertFails cl t k e 0x0702 (((s.cluster cl).arr t).chain e.base) true := by
  unfold State.insertRow
  dsimp only
  rw [if_neg (fun h => h hsound), if_pos h]
  rfl

variable (htable : s.poisoned (chainAddr cl t e.base) 8 = false)
include htable

/-- R146: the chain is POISONED. -/
theorem State.insertRow_of_poisoned (h : (((s.cluster cl).arr t).chain e.base).st = 2) :
    s.insertRow cl t k e = s.insertFails cl t k e 0x0206 (((s.cluster cl).arr t).chain e.base)
      ((((s.cluster cl).arr t).chain e.base).cause = 0x0702) := by
  unfold State.insertRow
  dsimp only
  rw [if_neg (fun h => h hsound), if_neg (by rw [htable]; decide), if_pos h]
  rfl

/-- R129: the chain is FREE. -/
theorem State.insertRow_of_free (h : (((s.cluster cl).arr t).chain e.base).st = 0) :
    s.insertRow cl t k e = s.insertFails cl t k e 0x0203 (((s.cluster cl).arr t).chain e.base) false := by
  unfold State.insertRow
  dsimp only
  rw [if_neg (fun h => h hsound), if_neg (by rw [htable]; decide), if_neg (by rw [h]; decide), if_pos (by rw [h]; decide)]
  rfl

variable (hopen : (((s.cluster cl).arr t).chain e.base).st = 1)
include hopen

/-- R129: the chain takes another number of rows. -/
theorem State.insertRow_of_rows (hset : (((s.cluster cl).arr t).chain e.base).rowsSet = true)
    (hne : (((s.cluster cl).arr t).chain e.base).rows ≠ e.rows.length / 16 - 1) :
    s.insertRow cl t k e = s.insertFails cl t k e 0x0203 ((((s.cluster cl).arr t).chain e.base).poison 0x0203) false := by
  unfold State.insertRow
  dsimp only
  rw [if_neg (fun h => h hsound), if_neg (by rw [htable]; decide), if_neg (by rw [hopen]; decide),
    if_neg (fun h => h hopen), if_pos (by simp [hset, hne])]
  rfl

variable (hrows : (((s.cluster cl).arr t).chain e.base).rowsSet = true →
  (((s.cluster cl).arr t).chain e.base).rows = e.rows.length / 16 - 1)
include hrows

/-- R129: no level is free. -/
theorem State.insertRow_of_full
    (h : restLevel (((s.cluster cl).arr t).chain e.base).occ (((s.cluster cl).arr t).chain e.base).depth 9 0 = none) :
    s.insertRow cl t k e = s.insertFails cl t k e 0x0203 ((((s.cluster cl).arr t).chain e.base).poison 0x0203) false := by
  unfold State.insertRow
  dsimp only
  rw [if_neg (fun h => h hsound), if_neg (by rw [htable]; decide), if_neg (by rw [hopen]; decide),
    if_neg (fun h => h hopen), if_neg (by simpa using hrows), h, if_neg (by simp [State.slotPoisoned])]
  rfl

variable {m : Nat} (hrest : restLevel (((s.cluster cl).arr t).chain e.base).occ (((s.cluster cl).arr t).chain e.base).depth 9 0 = some m)
include hrest

/-- R472: a level that would be added lies in a poisoned line. -/
theorem State.insertRow_of_slotPoisoned
    (h : s.slotPoisoned cl t (((s.cluster cl).arr t).chain e.base) e.base m e.row = true) :
    s.insertRow cl t k e = s.insertFails cl t k e 0x0206 ((((s.cluster cl).arr t).chain e.base).poison 0x0702) true := by
  unfold State.insertRow
  dsimp only
  rw [if_neg (fun h => h hsound), if_neg (by rw [htable]; decide), if_neg (by rw [hopen]; decide),
    if_neg (fun h => h hopen), if_neg (by simpa using hrows), hrest, if_pos (by simpa using h)]
  rfl

omit hsound htable hopen hrows hrest

/-- The chain's record once the next row of an entry has come to rest at level `m` (R129). -/
def Chain.tookRow (r : Chain) (e : Issued) (m : Nat) : Chain :=
  { r with rows := e.rows.length / 16 - 1, rowsSet := true
           occ := if e.row + 1 = e.rows.length then occAfter r.occ 0 m else r.occ
           count := if e.row + 1 = e.rows.length then (r.count + 1) % 256 else r.count }

/-- The registers of the cluster that a row which comes to rest leaves. -/
def State.rowTaken (s : State) (cl t k : Nat) (e : Issued) (m : Nat) : State :=
  let a := (s.cluster cl).arr t
  s.setCluster cl ((s.cluster cl).ranOn t k { a with nextW := !e.stream } e.base ((a.chain e.base).tookRow e m)
    { e with row := e.row + 1 })

include hsound htable hopen hrows hrest

/-- R129: the row comes to rest, in the raw tree and in the correction tree. -/
theorem State.insertRow_of_rest (h : s.slotPoisoned cl t (((s.cluster cl).arr t).chain e.base) e.base m e.row = false) :
    s.insertRow cl t k e =
      let r := ((s.cluster cl).arr t).chain e.base
      let u := (s.rowTaken cl t k e m).insertAt cl t e.base r 0 m e.row (nth ([], []) e.rows e.row).1
      if r.corr then u.insertAt cl t r.corrBase r 0 m e.row (nth ([], []) e.rows e.row).2 else u := by
  unfold State.insertRow
  dsimp only
  rw [if_neg (fun h => h hsound), if_neg (by rw [htable]; decide), if_neg (by rw [hopen]; decide),
    if_neg (fun h => h hopen), if_neg (by simpa using hrows), hrest, if_neg (by simp [h])]
  rfl

end

section
variable (s : State) (cl t k : Nat) (e : Issued)

/-- What a failure leaves: every byte, the record given, and the entry with its status at its row. -/
theorem State.insertFails_leaves {st : Nat} {r : Chain} {par : Bool} {u : State} (hk : k < ((s.cluster cl).arr t).queue.length)
    (h : (s.insertFails cl t k e st r par).sameWork u) : s.sameBytes u ∧ u.chainOf cl t e.base = r ∧
      ∃ x, (((u.cluster cl).arr t).queue)[k]? = some x ∧ x.status = st ∧ x.row = e.row := by
  have ha : (u.cluster cl).arr t = { ((s.cluster cl).arr t).setChain e.base r with
      queue := ((s.cluster cl).arr t).queue.set k { e with status := st, parity := par, poison := 0 } } := by
    rw [h.clusters, State.insertFails, State.setCluster_self, Cluster.arr_ranOn]
  refine ⟨h.bytes, ?_, { e with status := st, parity := par, poison := 0 }, ?_, rfl, rfl⟩
  · rw [State.chainOf, ha]
    exact Arr.setChain_self _ _ _
  · rw [ha, List.getElem?_set_self hk]

/-- The array once a row has come to rest. -/
theorem State.arr_rowTaken (m : Nat) : ((s.rowTaken cl t k e m).cluster cl).arr t =
    { ((s.cluster cl).arr t).setChain e.base ((((s.cluster cl).arr t).chain e.base).tookRow e m) with
      nextW := !e.stream, queue := ((s.cluster cl).arr t).queue.set k { e with row := e.row + 1 } } := by
  rw [State.rowTaken, State.setCluster_self, Cluster.arr_ranOn]
  rfl

end

/-- The row: an array delivers the next chunk sum of the instruction that it runs. -/
theorem exec_chunkSumInsert {s : State} {cl : ClusterId} {array k : Nat} {e : Issued}
    (hk : ((s.cluster cl).arr array).running (s.split cl && array ≠ 0) = some k)
    (he : ((s.cluster cl).arr array).queue[k]? = some e) :
    exec (.chunkSumInsert cl array) s = .next (s.insertRow cl array k e) := by
  show execChunkSumInsert cl array s = _
  simp only [execChunkSumInsert, hk, he]

theorem carry_zero (pair : Bool) (lv : Nat → Pair) (q : Nat) (x : Pair) :
    carry pair lv 0 q x = (List.range q).foldl (fun x j => node pair (lv j) x) x := by
  simp only [carry, Nat.not_lt_zero, if_false]

/-- A row that comes to rest holds what it carried; the correction tree takes no slot of the raw one. -/
theorem State.level_insertRow {s : State} {cl t b : Nat} {r : Chain} {m row n : Nat} {raw corr : List Pair}
    (hm : m ≤ r.depth) (hrow : row < 128) (hn : n < 128) (hlayout : layoutOf b r [] = 0) :
    let u := s.insertAt cl t b r 0 m row raw
    (if r.corr then u.insertAt cl t r.corrBase r 0 m row corr else u).level cl t b r m row n =
      carry r.pair (fun j => s.level cl t b r j row n) 0 m (normal r.pair (nth (0, 0) raw n)) := by
  have hu : (s.insertAt cl t b r 0 m row raw).level cl t b r m row n =
      carry r.pair (fun j => s.level cl t b r j row n) 0 m (normal r.pair (nth (0, 0) raw n)) := by
    rw [State.level_insertAt hm hm hrow hrow hn, if_pos ⟨rfl, rfl⟩]
  dsimp only
  split
  · next hc => rw [(State.writesTree_insertAt hm hrow).level_other ((layoutOf_eq_zero hlayout).2 hc) hm hrow hn, hu]
  · exact hu

/-- Settles O16, by the reasons for which the next chunk sum cannot come to rest, in the order in which R129, R146, R204 and
R472 are judged. -/
theorem chunkSumInsertion : Obligations.ChunkSumInsertion := by
  unfold Obligations.ChunkSumInsertion
  refine ⟨?_, ?_⟩
  · intro cl array k e s a r v vals harray hrun he hrow fails
    have hexec := exec_chunkSumInsert hrun he
    have hlen : k < a.queue.length := (List.getElem?_eq_some_iff.mp he).1
    have fails_of {st : Nat} {r' : Chain} {par : Bool} (h : s.insertRow cl array k e = s.insertFails cl array k e st r' par) :
        fails st r' :=
      ⟨_, hexec, s.insertFails_leaves cl array k e hlen (by rw [h]; exact .refl _)⟩
    refine ⟨fun h => ⟨_, hexec, s.insertFails_leaves cl array k e hlen (State.insertRow_of_skewed h)⟩,
      fun hs h => fails_of (State.insertRow_of_lost hs h), fun hs htable _ => ⟨?_, ?_, ?_, ?_, ?_, ?_⟩⟩
    · exact fun h => fails_of (State.insertRow_of_poisoned hs htable h)
    · exact fun h => fails_of (State.insertRow_of_free hs htable h)
    · exact fun h hset hne => Chain.poison_of_open h _ ▸ fails_of (State.insertRow_of_rows hs htable h hset hne)
    · exact fun h hrows hfull => Chain.poison_of_open h _ ▸ fails_of (State.insertRow_of_full hs htable h hrows hfull)
    · exact fun m h hrows hrest hp => Chain.poison_of_open h _ ▸ fails_of (State.insertRow_of_slotPoisoned hs htable h hrows hrest hp)
    · intro m hopen hrows hrest hp hlayout
      refine ⟨_, hexec, ?_⟩
      have hm : m ≤ r.depth := restLevel_le hrest
      rw [State.insertRow_of_rest hs htable hopen hrows hrest hp]
      have hclusters : ∀ u, (s.rowTaken cl array k e m).insertAt cl array e.base r 0 m e.row vals.1 = u →
          (if r.corr then u.insertAt cl array r.corrBase r 0 m e.row vals.2 else u).cluster cl =
            (s.rowTaken cl array k e m).cluster cl := by
        rintro _ rfl
        split
        · rw [(State.writesTree_insertAt hm hrow).clusters, (State.writesTree_insertAt hm hrow).clusters]
        · rw [(State.writesTree_insertAt hm hrow).clusters]
      have harr := (congrArg (Cluster.arr · array) (hclusters _ rfl)).trans (s.arr_rowTaken cl array k e m)
      dsimp only at harr ⊢
      refine ⟨⟨{ e with row := e.row + 1 }, ?_, rfl, rfl⟩, ?_, fun n hn => ?_⟩
      · rw [harr, List.getElem?_set_self hlen]
      · rw [State.chainOf, harr]
        refine (Arr.setChain_self _ _ _).trans ?_
        simp only [Chain.tookRow, decide_eq_true_eq]
        rfl
      · refine (State.level_insertRow hm hrow hn hlayout).trans ?_
        have before (j : Nat) (hj : j < m) : (s.rowTaken cl array k e m).level cl array e.base r j e.row n =
            s.level cl array e.base r j e.row n := State.level_congr (fun _ _ => rfl) (by omega) hrow hn
        exact (carry_congr before _).trans (carry_zero ..)
  · intro cl array before after e s a hbefore he hqueue
    show Host.Outcome.next _ = _
    rw [show ((s.cluster cl).arr array).queue = before ++ e :: after from hqueue, loadFirst_append hbefore he]

end Sys2Proof.Machine

/-! ### ACC.MERGE (R124, R132, R133, R144, R146)

Either the two records end the merge, and no byte changes, or the source's levels go into the target in ascending order,
each carrying past the occupied ones. -/

namespace Sys2Proof.Machine

/-! #### The levels of one tree that go into another -/

/-- One level of the source, whose values at one row and column are `src`, goes into the target's levels and occupancy
`p`. -/
def stepLevels (pair : Bool) (depth occ : Nat) (src : Nat → Pair) (p : (Nat → Pair) × Nat) (k : Nat) : (Nat → Pair) × Nat :=
  match (if bit occ k then restLevel p.2 depth 9 k else none) with
  | some q => (fun j => if j = q then carry pair p.1 k q (src k) else p.1 j, occAfter p.2 k q)
  | none => p

/-- One level of the source as the model merges it, over every row. -/
def State.mergeStep (cl t tb sb : Nat) (tr sr : Chain) (p : State × Nat) (k : Nat) : State × Nat :=
  if bit sr.occ k then
    match restLevel p.2 tr.depth 9 k with
    | some m => (p.1.mergeLevel cl t tb sb tr sr p.2 k, occAfter p.2 k m)
    | none => p
  else p

theorem State.mergeTree_eq (s : State) (cl t tb sb : Nat) (tr sr : Chain) : s.mergeTree cl t tb sb tr sr =
    ((List.range 8).foldl (State.mergeStep cl t tb sb tr sr) (s, tr.occ)).1 := rfl

theorem bit_eq_false_of_lt {n k w : Nat} (h : n < 2 ^ w) (hk : w ≤ k) : bit n k = false := by
  rw [bit, Nat.div_eq_of_lt (Nat.lt_of_lt_of_le h (Nat.pow_le_pow_right (by decide) hk))]
  rfl

/-- A chain occupies no level beyond its depth. -/
theorem le_depth_of_bit {occ depth k : Nat} (h : occ < 2 ^ (depth + 1)) (hk : bit occ k = true) : k ≤ depth := by
  refine Decidable.byContradiction fun hn => ?_
  rw [bit_eq_false_of_lt h (by omega)] at hk
  cases hk

/-- The first `rows` rows of a source level, merged into the level `m` of the target. -/
def State.mergeRows (s : State) (cl t tb sb : Nat) (tr sr : Chain) (k m rows : Nat) : State :=
  (List.range rows).foldl (fun s row => s.insertAt cl t tb tr k m row ((List.range 128).map (s.level cl t sb sr k row))) s

theorem State.mergeRows_succ (s : State) (cl t tb sb : Nat) (tr sr : Chain) (k m rows : Nat) :
    s.mergeRows cl t tb sb tr sr k m (rows + 1) =
      (s.mergeRows cl t tb sb tr sr k m rows).insertAt cl t tb tr k m rows
        ((List.range 128).map ((s.mergeRows cl t tb sb tr sr k m rows).level cl t sb sr k rows)) := by
  rw [State.mergeRows, List.range_succ (n := rows), List.foldl_append]
  rfl

theorem State.mergeLevel_eq (s : State) (cl t tb sb : Nat) (tr sr : Chain) {occ k m : Nat} (h : restLevel occ tr.depth 9 k = some m) :
    s.mergeLevel cl t tb sb tr sr occ k = s.mergeRows cl t tb sb tr sr k m 128 := by
  rw [State.mergeLevel, h]
  rfl

/-- A level of the source comes to rest at a level of the target, or it is passed over. -/
theorem levelRests_or (src occ depth k : Nat) : (bit src k = true → restLevel occ depth 9 k = none) ∨
    ∃ q, bit src k = true ∧ restLevel occ depth 9 k = some q := by
  cases h : restLevel occ depth 9 k with
  | none => exact .inl fun _ => rfl
  | some q => cases bit src k <;> simp

section
variable {pair : Bool} {depth occ k q : Nat} {src : Nat → Pair} {x : (Nat → Pair) × Nat}

theorem stepLevels_of_rest (hb : bit occ k = true) (hq : restLevel x.2 depth 9 k = some q) :
    stepLevels pair depth occ src x k = (fun j => if j = q then carry pair x.1 k q (src k) else x.1 j, occAfter x.2 k q) := by
  rw [stepLevels, if_pos hb, hq]

theorem stepLevels_of_skip (h : bit occ k = true → restLevel x.2 depth 9 k = none) : stepLevels pair depth occ src x k = x := by
  unfold stepLevels
  by_cases hb : bit occ k = true
  · rw [if_pos hb, h hb]
  · rw [if_neg hb]

end

section
variable {cl t tb sb k q : Nat} {tr sr : Chain} {p : State × Nat}

theorem State.mergeStep_of_rest (hb : bit sr.occ k = true) (hq : restLevel p.2 tr.depth 9 k = some q) :
    State.mergeStep cl t tb sb tr sr p k = (p.1.mergeRows cl t tb sb tr sr k q 128, occAfter p.2 k q) := by
  rw [State.mergeStep, if_pos hb, hq, State.mergeLevel_eq _ _ _ _ _ _ _ hq]

theorem State.mergeStep_of_skip (h : bit sr.occ k = true → restLevel p.2 tr.depth 9 k = none) :
    State.mergeStep cl t tb sb tr sr p k = p := by
  unfold State.mergeStep
  by_cases hb : bit sr.occ k = true
  · rw [if_pos hb, h hb]
  · rw [if_neg hb]

end

section
variable {s : State} {cl t tb sb : Nat} {tr sr : Chain}

theorem State.writesTree_mergeRows {k m : Nat} (hm : m ≤ tr.depth) {rows : Nat} (h : rows ≤ 128) :
    s.writesTree (s.mergeRows cl t tb sb tr sr k m rows) cl t tb tr := by
  induction rows with
  | zero => exact .refl ..
  | succ rows ih =>
    rw [State.mergeRows_succ]
    exact (ih (Nat.le_of_succ_le h)).trans (State.writesTree_insertAt hm h)

variable (hapart : ∀ slot ∈ sr.rawSlots sb, slot ∉ tr.rawSlots tb) (hpair : tr.pair = sr.pair)
include hapart hpair

/-- Once its rows have been merged the level holds the sums, and every other level what it held. -/
theorem State.level_mergeRows {k q : Nat} (hk : k ≤ sr.depth) (hq : q ≤ tr.depth) {rows : Nat} (h : rows ≤ 128) {m row n : Nat}
    (hm : m ≤ tr.depth) (hrow : row < 128) (hn : n < 128) :
    (s.mergeRows cl t tb sb tr sr k q rows).level cl t tb tr m row n =
      if m = q ∧ row < rows then carry tr.pair (fun j => s.level cl t tb tr j row n) k q (s.level cl t sb sr k row n)
      else s.level cl t tb tr m row n := by
  induction rows generalizing m row with
  | zero => rw [if_neg (by omega)]; rfl
  | succ rows ih =>
    have hrows : rows ≤ 128 := Nat.le_of_succ_le h
    have source : (s.mergeRows cl t tb sb tr sr k q rows).level cl t sb sr k rows n = s.level cl t sb sr k rows n :=
      (State.writesTree_mergeRows hq hrows).level_other hapart hk h hn
    have hvals : nth (0, 0) ((List.range 128).map ((s.mergeRows cl t tb sb tr sr k q rows).level cl t sb sr k rows)) n =
        s.level cl t sb sr k rows n := by
      rw [nth, List.getD_eq_getElem?_getD, List.getElem?_map, List.getElem?_range hn, Option.map_some, Option.getD_some, source]
    rw [State.mergeRows_succ, State.level_insertAt hm hq h hrow hn, ih hrows hm hrow, hvals]
    by_cases hlast : row = rows
    · subst hlast
      by_cases hmq : m = q
      · rw [if_pos ⟨hmq, rfl⟩, if_pos ⟨hmq, Nat.lt_succ_self row⟩, hpair, normal_level, ← hpair]
        refine carry_congr (fun j hj => ?_) _
        rw [ih hrows (by omega) hrow, if_neg (by omega)]
      · rw [if_neg (by omega), if_neg (by omega), if_neg (by omega)]
    · rw [if_neg (by omega)]
      by_cases hmq : m = q ∧ row < rows
      · rw [if_pos hmq, if_pos (by omega)]
      · rw [if_neg hmq, if_neg (by omega)]

omit hapart hpair

theorem State.writesTree_mergeStep {p : State × Nat} (h : s.writesTree p.1 cl t tb tr) (k : Nat) :
    s.writesTree (State.mergeStep cl t tb sb tr sr p k).1 cl t tb tr := by
  rcases levelRests_or sr.occ p.2 tr.depth k with hskip | ⟨q, hb, hq⟩
  · rwa [State.mergeStep_of_skip hskip]
  · rw [State.mergeStep_of_rest hb hq]
    exact h.trans (State.writesTree_mergeRows (restLevel_le hq) (Nat.le_refl 128))

theorem State.writesTree_mergeTree : s.writesTree (s.mergeTree cl t tb sb tr sr) cl t tb tr := by
  have steps (l : List Nat) (p : State × Nat) (h : s.writesTree p.1 cl t tb tr) :
      s.writesTree (l.foldl (State.mergeStep cl t tb sb tr sr) p).1 cl t tb tr := by
    induction l generalizing p with
    | nil => exact h
    | cons k l ih => exact ih _ (State.writesTree_mergeStep h k)
  rw [State.mergeTree_eq]
  exact steps (List.range 8) (s, tr.occ) (.refl ..)

/-- The model's merge `p` holds the levels and the occupancy `x` in the target's tree at one row and column, and has written
nothing else since `s`. -/
structure State.holds (s : State) (cl t tb : Nat) (tr : Chain) (row n : Nat) (p : State × Nat) (x : (Nat → Pair) × Nat) : Prop where
  writes : s.writesTree p.1 cl t tb tr
  levels : ∀ m, m ≤ tr.depth → p.1.level cl t tb tr m row n = x.1 m
  occ : p.2 = x.2

include hapart hpair

/-- One level of the source: the model's step holds what the step on levels gives. -/
theorem State.holds.mergeStep (hocc : sr.occ < 2 ^ (sr.depth + 1)) {row n : Nat} (hrow : row < 128) (hn : n < 128)
    {src : Nat → Pair} (hsrc : ∀ k, k ≤ sr.depth → s.level cl t sb sr k row n = src k)
    {p : State × Nat} {x : (Nat → Pair) × Nat} (h : s.holds cl t tb tr row n p x) (k : Nat) :
    s.holds cl t tb tr row n (State.mergeStep cl t tb sb tr sr p k) (stepLevels tr.pair tr.depth sr.occ src x k) := by
  rcases levelRests_or sr.occ p.2 tr.depth k with hskip | ⟨q, hb, hq⟩
  · rw [State.mergeStep_of_skip hskip, stepLevels_of_skip (h.occ ▸ hskip)]
    exact h
  · have hk := le_depth_of_bit hocc hb
    have hqd := restLevel_le hq
    refine ⟨State.writesTree_mergeStep h.writes k, fun m hm => ?_, ?_⟩
    · rw [State.mergeStep_of_rest hb hq, stepLevels_of_rest hb (h.occ ▸ hq),
        State.level_mergeRows hapart hpair hk hqd (Nat.le_refl 128) hm hrow hn, h.writes.level_other hapart hk hrow hn, h.levels m hm,
        hsrc k hk]
      dsimp only
      by_cases hmq : m = q
      · rw [if_pos ⟨hmq, hrow⟩, if_pos hmq]
        exact carry_congr (fun j hj => h.levels j (by omega)) _
      · rw [if_neg (by omega), if_neg hmq]
    · rw [State.mergeStep_of_rest hb hq, stepLevels_of_rest hb (h.occ ▸ hq), h.occ]

/-- The levels of the target, `lv` before, once those of the source, `src`, have gone into it (R132). -/
theorem State.level_mergeTree (hocc : sr.occ < 2 ^ (sr.depth + 1)) {row n : Nat} (hrow : row < 128) (hn : n < 128)
    {src lv : Nat → Pair} (hsrc : ∀ k, k ≤ sr.depth → s.level cl t sb sr k row n = src k)
    (hlv : ∀ m, m ≤ tr.depth → s.level cl t tb tr m row n = lv m) {m : Nat} (hm : m ≤ tr.depth) :
    (s.mergeTree cl t tb sb tr sr).level cl t tb tr m row n =
      ((List.range 8).foldl (stepLevels tr.pair tr.depth sr.occ src) (lv, tr.occ)).1 m := by
  have steps (l : List Nat) (p : State × Nat) (x : (Nat → Pair) × Nat) (h : s.holds cl t tb tr row n p x) :
      s.holds cl t tb tr row n (l.foldl (State.mergeStep cl t tb sb tr sr) p) (l.foldl (stepLevels tr.pair tr.depth sr.occ src) x) := by
    induction l generalizing p x with
    | nil => exact h
    | cons k l ih => exact ih _ _ (h.mergeStep hapart hpair hocc hrow hn hsrc k)
  rw [State.mergeTree_eq]
  exact (steps (List.range 8) (s, tr.occ) _ ⟨.refl .., hlv, rfl⟩).levels m hm

end

/-! #### The raw and the correction tree -/

/-- Memory once both trees of a source have been merged into those of a target. -/
def State.mergeTrees (s : State) (cl t tb sb : Nat) (tr sr : Chain) : State :=
  let x := s.mergeTree cl t tb sb tr sr
  if tr.corr then x.mergeTree cl t tr.corrBase sr.corrBase tr sr else x

section
variable {s : State} {cl t tb sb : Nat} {tr sr : Chain}

/-- The correction tree is touched only after the raw one. -/
theorem State.mergeTrees_cases (s : State) (cl t tb sb : Nat) (tr sr : Chain) : ∃ x, x = s.mergeTree cl t tb sb tr sr ∧
    s.writesTree x cl t tb tr ∧
    (tr.corr = true ∧ s.mergeTrees cl t tb sb tr sr = x.mergeTree cl t tr.corrBase sr.corrBase tr sr ∧
        x.writesTree (s.mergeTrees cl t tb sb tr sr) cl t tr.corrBase tr ∨
      tr.corr = false ∧ s.mergeTrees cl t tb sb tr sr = x) := by
  refine ⟨_, rfl, State.writesTree_mergeTree, ?_⟩
  cases hc : tr.corr with
  | true =>
    have h : s.mergeTrees cl t tb sb tr sr = (s.mergeTree cl t tb sb tr sr).mergeTree cl t tr.corrBase sr.corrBase tr sr :=
      if_pos hc
    refine .inl ⟨rfl, h, ?_⟩
    rw [h]
    exact State.writesTree_mergeTree
  | false => exact .inr ⟨rfl, if_neg (by rw [hc]; decide)⟩

theorem State.cluster_mergeTrees (k : Nat) : (s.mergeTrees cl t tb sb tr sr).cluster k = s.cluster k := by
  obtain ⟨x, -, hx, ⟨-, -, hu⟩ | ⟨-, hu⟩⟩ := s.mergeTrees_cases cl t tb sb tr sr
  · rw [hu.clusters, hx.clusters]
  · rw [hu, hx.clusters]

/-- A merge writes no byte outside the target's slots. -/
theorem State.readByte_mergeTrees_outside {a : Nat}
    (ha : ∀ k ∈ tr.slots tb, a < slotWord cl t k 0 0 ∨ slotWord cl t k 0 0 + 0x1_0000 ≤ a) :
    (s.mergeTrees cl t tb sb tr sr).readByte a = s.readByte a := by
  have outside {b : Nat} (hb : ∀ k ∈ tr.rawSlots b, k ∈ tr.slots tb) : ¬ tr.inTree cl t b a := fun ⟨k, hk, hx⟩ => by
    have := ha k (hb k hk)
    omega
  have hraw := outside fun k hk => Chain.mem_slots.mpr (.inl hk)
  obtain ⟨x, -, hx, ⟨hc, -, hu⟩ | ⟨-, hu⟩⟩ := s.mergeTrees_cases cl t tb sb tr sr
  · rw [hu.bytes a (outside fun k hk => Chain.mem_slots.mpr (.inr ⟨hc, hk⟩)), hx.bytes a hraw]
  · rw [hu, hx.bytes a hraw]

variable (hpair : tr.pair = sr.pair) (hocc : sr.occ < 2 ^ (sr.depth + 1)) (hlayout : layoutOf tb tr (sr.slots sb) = 0)
  {m row n : Nat} (hm : m ≤ tr.depth) (hrow : row < 128) (hn : n < 128)
include hpair hocc hlayout hm hrow hn

/-- What two trees, the source's at `sb` and the target's at `tb`, make at one row and column. -/
theorem State.level_mergeTrees_raw : (s.mergeTrees cl t tb sb tr sr).level cl t tb tr m row n =
    ((List.range 8).foldl (stepLevels tr.pair tr.depth sr.occ fun k => s.level cl t sb sr k row n)
      (fun j => s.level cl t tb tr j row n, tr.occ)).1 m := by
  obtain ⟨hsource, hraw⟩ := layoutOf_eq_zero hlayout
  have apart : ∀ k ∈ sr.rawSlots sb, k ∉ tr.rawSlots tb := fun k hk hk' =>
    hsource k (Chain.mem_slots.mpr (.inl hk')) (Chain.mem_slots.mpr (.inl hk))
  have hlevel := State.level_mergeTree (s := s) (cl := cl) (t := t) apart hpair hocc hrow hn (fun _ _ => rfl) (fun _ _ => rfl) hm
  obtain ⟨x, rfl, -, ⟨hc, -, hu⟩ | ⟨-, hu⟩⟩ := s.mergeTrees_cases cl t tb sb tr sr
  · rw [hu.level_other (hraw hc) hm hrow hn, hlevel]
  · rw [hu, hlevel]

theorem State.level_mergeTrees_corr (hcorr : tr.corr = sr.corr) (hc : tr.corr = true) :
    (s.mergeTrees cl t tb sb tr sr).level cl t tr.corrBase tr m row n =
      ((List.range 8).foldl (stepLevels tr.pair tr.depth sr.occ fun k => s.level cl t sr.corrBase sr k row n)
        (fun j => s.level cl t tr.corrBase tr j row n, tr.occ)).1 m := by
  obtain ⟨hsource, hraw⟩ := layoutOf_eq_zero hlayout
  have source : ∀ k ∈ sr.rawSlots sr.corrBase, k ∉ tr.slots tb := fun k hk hk' =>
    hsource k hk' (Chain.mem_slots.mpr (.inr ⟨hcorr ▸ hc, hk⟩))
  obtain ⟨x, -, hx, ⟨-, hu, -⟩ | ⟨hn', -⟩⟩ := s.mergeTrees_cases cl t tb sb tr sr
  · rw [hu]
    refine State.level_mergeTree (fun k hk h => source k hk (Chain.mem_slots.mpr (.inr ⟨hc, h⟩))) hpair hocc hrow hn (fun k hk => ?_)
      (fun j hj => ?_) hm
    · exact hx.level_other (fun k hk h => source k hk (Chain.mem_slots.mpr (.inl h))) hk hrow hn
    · exact hx.level_other (fun k hk h => hraw hc k h hk) hj hrow hn
  · rw [hc] at hn'
    cases hn'

end

/-! #### The two records (R132, R133) -/

/-- The two chains can be merged: they are two, and their layouts and rows agree (R133). -/
def Chain.agrees (tr sr : Chain) : Prop :=
  tr.pair = sr.pair ∧ tr.corr = sr.corr ∧ (tr.rowsSet = true → sr.rowsSet = true → tr.rows = sr.rows)

/-- A chain is OPEN or POISONED. -/
def Chain.live (r : Chain) : Bool := r.st = 1 || r.st = 2

theorem Chain.live_iff {r : Chain} : r.live = true ↔ r.st = 1 ∨ r.st = 2 := by simp [Chain.live]

section
variable {same : Bool} {tr sr : Chain} {tbad sbad : Bool}

/-- What ends a merge first, as `mergeRecords` tests it. -/
theorem mergeRecords_guard : (same || decide (tr.pair ≠ sr.pair) || decide (tr.corr ≠ sr.corr) ||
    (tr.rowsSet && sr.rowsSet && decide (tr.rows ≠ sr.rows)) || !tr.live || !sr.live) = false ↔
    same = false ∧ tr.agrees sr ∧ tr.live = true ∧ sr.live = true := by
  simp only [Chain.agrees, Bool.or_eq_false_iff, Bool.and_eq_false_iff, Bool.not_eq_false', decide_eq_false_iff_not, Decidable.not_not,
    and_assoc]
  refine and_congr_right fun _ => and_congr_right fun _ => and_congr_right fun _ => and_congr_left fun _ => ?_
  cases tr.rowsSet <;> cases sr.rowsSet <;> simp

theorem mergeRecords_of_disagree (h : ¬ (same = false ∧ tr.agrees sr ∧ tr.live = true ∧ sr.live = true)) :
    mergeRecords same tr sr tbad sbad = (0x0203, tr, sr) := by
  unfold mergeRecords
  dsimp only
  refine if_pos ?_
  rw [← Bool.not_eq_false]
  exact fun hg => h (mergeRecords_guard.mp hg)

variable (h : same = false ∧ tr.agrees sr ∧ tr.live = true ∧ sr.live = true)
include h

theorem mergeRecords_of_agree : mergeRecords same tr sr tbad sbad =
    if tr.st = 2 || sr.st = 2 || tbad || sbad then
      let t := if tbad then tr.poison 0x0702 else tr
      let q := if sbad then sr.poison 0x0702 else sr
      (0x0206, { t with st := 2, cause := if t.st = 2 && (t.cause ≠ 0 || q.st ≠ 2) then t.cause else q.cause }, Chain.free)
    else
      match foldOcc tr.depth sr.occ (List.range 8) tr.occ with
      | none => (0x0203, tr.poison 0x0203, sr)
      | some occ =>
        (0, { tr with occ := occ, count := (tr.count + sr.count) % 256, rows := if tr.rowsSet then tr.rows else sr.rows
                      rowsSet := tr.rowsSet || sr.rowsSet }, Chain.free) := by
  unfold mergeRecords
  dsimp only
  refine if_neg ?_
  rw [Bool.not_eq_true]
  exact mergeRecords_guard.mpr h

/-- The cause that a poisoned merge leaves in the target: its own where it has one, else the source's (R133). -/
def mergeCause (tr sr : Chain) (tbad sbad : Bool) : Nat :=
  if tbad then 0x0702 else if tr.st = 2 ∧ (tr.cause ≠ 0 ∨ (sr.st = 1 ∧ sbad = false)) then tr.cause
  else if sbad then 0x0702 else sr.cause

/-- R124, R133, R146: a poisoned chain, or a poisoned line in the slots of an OPEN one. -/
theorem mergeRecords_of_poisoned (ht : tbad = true → tr.st = 1) (hs : sbad = true → sr.st = 1)
    (hp : tr.st = 2 ∨ sr.st = 2 ∨ tbad = true ∨ sbad = true) :
    mergeRecords same tr sr tbad sbad = (0x0206, { tr with st := 2, cause := mergeCause tr sr tbad sbad }, Chain.free) := by
  rw [mergeRecords_of_agree h, if_pos (by simpa [or_assoc] using hp)]
  have hsource : (if sbad then sr.poison 0x0702 else sr).st = 2 ↔ ¬ (sr.st = 1 ∧ sbad = false) := by
    obtain ⟨-, -, -, hl⟩ := h
    cases hb : sbad with
    | true => simp [Chain.poison_of_open (hs hb)]
    | false => rcases Chain.live_iff.mp hl with hl | hl <;> simp [hl]
  have hcause : (if sbad then sr.poison 0x0702 else sr).cause = if sbad then 0x0702 else sr.cause := by
    cases hb : sbad with
    | true => simp [Chain.poison_of_open (hs hb)]
    | false => rfl
  cases hb : tbad with
  | true => simp [mergeCause, Chain.poison_of_open (ht hb)]
  | false => simp [mergeCause, hcause, hsource]

/-- R133: a level beyond the depth would be needed. -/
theorem mergeRecords_of_full (ht : tr.st = 1) (hs : sr.st = 1) (htb : tbad = false) (hsb : sbad = false)
    (hf : foldOcc tr.depth sr.occ (List.range 8) tr.occ = none) :
    mergeRecords same tr sr tbad sbad = (0x0203, { tr with st := 2, cause := 0x0203 }, sr) := by
  rw [mergeRecords_of_agree h, if_neg (by simp [ht, hs, htb, hsb]), hf, ← Chain.poison_of_open ht]

/-- R132: the source is folded into the target. -/
theorem mergeRecords_of_folded (ht : tr.st = 1) (hs : sr.st = 1) (htb : tbad = false) (hsb : sbad = false) {occ : Nat}
    (hf : foldOcc tr.depth sr.occ (List.range 8) tr.occ = some occ) :
    mergeRecords same tr sr tbad sbad =
      (0, { tr with occ := occ, count := (tr.count + sr.count) % 256, rows := if tr.rowsSet then tr.rows else sr.rows
                    rowsSet := tr.rowsSet || sr.rowsSet }, Chain.free) := by
  rw [mergeRecords_of_agree h, if_neg (by simp [ht, hs, htb, hsb]), hf]

end

/-! #### The instruction -/

/-- An OPEN chain has a poisoned line in its slots (R124). -/
def State.lineHit (s : State) (i : Issue) (f : AccF) (r : Chain) (b : Nat) : Bool :=
  r.st = 1 && (List.range 128).any fun row => s.slotPoisoned i.cl f.array r b 8 row

/-- What the records and the lines under them make of a merge. -/
def State.mergeOutcome (s : State) (i : Issue) (f : AccF) : Nat × Chain × Chain :=
  let a := (s.cluster i.cl).arr f.array
  if s.poisoned (chainAddr i.cl f.array f.base) 8 || s.poisoned (chainAddr i.cl f.array f.cbase) 8 then
    (0x0702, a.chain f.base, a.chain f.cbase)
  else mergeRecords (f.base = f.cbase) (a.chain f.base) (a.chain f.cbase) (s.lineHit i f (a.chain f.base) f.base)
    (s.lineHit i f (a.chain f.cbase) f.cbase)

/-- A merge ends in a state of memory `u`: its records are set, and it joins the queue. -/
def State.mergeEnds (s u : State) (i : Issue) (f : AccF) (o : Nat × Chain × Chain) : State :=
  let a := (s.cluster i.cl).arr f.array
  let c := u.cluster i.cl
  (u.setCluster i.cl (c.setArr f.array (if f.base = f.cbase then c.arr f.array
    else ((c.arr f.array).setChain f.base o.2.1).setChain f.cbase o.2.2))).accEntry 0x19 i f o.1
    (o.1 = 0x0702 || (o.1 = 0x0206 && o.2.1.cause = 0x0702))
    (((a.chain f.base).slots f.base ++ (a.chain f.cbase).slots f.cbase).map (slotId i.cl f.array))

theorem State.accMerge_eq (s : State) (i : Issue) (f : AccF) : s.accMerge i f =
    s.mergeEnds (if (s.mergeOutcome i f).1 = 0 then s.mergeTrees i.cl f.array f.base f.cbase (s.chainOf i.cl f.array f.base)
      (s.chainOf i.cl f.array f.cbase) else s) i f (s.mergeOutcome i f) := rfl

/-- What an instruction leaves at its end: its entry, the two records, and the bytes of `u`. -/
theorem State.mergeEnds_leaves {s u : State} {i : Issue} {f : AccF} {o : Nat × Chain × Chain} (hf : f.array < 3)
    (hu : u.cluster i.cl = s.cluster i.cl)
    (hsame : f.base = f.cbase → o.2 = (s.chainOf i.cl f.array f.base, s.chainOf i.cl f.array f.cbase)) :
    (∃ e, (s.mergeEnds u i f o).newest i.cl (f.array + 1) = some e ∧ e.status = o.1 ∧ e.base = f.base) ∧
    (s.mergeEnds u i f o).chainOf i.cl f.array f.base = o.2.1 ∧ (s.mergeEnds u i f o).chainOf i.cl f.array f.cbase = o.2.2 ∧
    ∀ x, (s.mergeEnds u i f o).readByte x = u.readByte x := by
  have hchain (b : Nat) : (s.mergeEnds u i f o).chainOf i.cl f.array b =
      (if f.base = f.cbase then (u.cluster i.cl).arr f.array
        else (((u.cluster i.cl).arr f.array).setChain f.base o.2.1).setChain f.cbase o.2.2).chain b :=
    (State.chainOf_push_array _ _ _ hf _).trans (State.chainOf_setArr ..)
  refine ⟨?_, ?_, ?_, fun x => State.readByte_push_array _ _ _ hf x⟩
  · rw [State.mergeEnds, State.accEntry, State.newest, State.unitQueue_array _ _ hf, State.arr_push_array _ _ _ hf,
      List.getLast?_concat]
    exact ⟨_, rfl, rfl, rfl⟩
  · rw [hchain]
    split
    · next h => rw [hsame h, hu]; rfl
    · next h => rw [Arr.setChain_other _ _ _ h, Arr.setChain_self]
  · rw [hchain]
    split
    · next h => rw [hsame h, hu]; rfl
    · next h => rw [Arr.setChain_self]

/-- Settles O18, by the outcome of the merge on the two records; where it folds the source, the target's levels are those of
the fold, tree by tree. -/
theorem chainMerge : Obligations.ChainMerge := by
  unfold Obligations.ChainMerge
  intro i f s a tr sr agree live hit tbad sbad cause merged ends gives tables hwf hissue hroom
  have hf : f.array < 3 := AccF.array_lt_of_wf (wf_of_issue_wf hwf)
  have hexec : exec (.accMerge i f) s = guarded (s.quiet i.cl f.array [f.base, f.cbase]) s (s.accMerge i f) := by
    show guarded (_ && _ && _) s _ = _
    rw [hissue, hroom, Bool.and_self, Bool.true_and]
  -- the outcome says how a merge ends: memory is touched only where it is a fold
  have ends_of (hquiet : s.quiet i.cl f.array [f.base, f.cbase] = true) {u : State} {st : Nat} {t' s' : Chain}
      (ho : s.mergeOutcome i f = (st, t', s')) (hu : (if st = 0 then s.mergeTrees i.cl f.array f.base f.cbase tr sr else s) = u)
      (hclusters : u.cluster i.cl = s.cluster i.cl) (hsame : f.base = f.cbase → (t', s') = (tr, sr))
      (hbytes : ∀ x, (∀ k ∈ tr.slots f.base, x < slotWord i.cl f.array k 0 0 ∨ slotWord i.cl f.array k 0 0 + 0x1_0000 ≤ x) →
        u.readByte x = s.readByte x) :
      ends st t' s' (s.mergeEnds u i f (st, t', s')) ∧ ∀ x, (s.mergeEnds u i f (st, t', s')).readByte x = u.readByte x := by
    obtain ⟨hentry, ht, hs, hmem⟩ := State.mergeEnds_leaves (o := (st, t', s')) hf hclusters hsame
    refine ⟨⟨?_, hentry, ht, hs, fun x hx => (hmem x).trans (hbytes x hx)⟩, hmem⟩
    rw [hexec, guarded_true _ _ hquiet, State.accMerge_eq, ho]
    rw [← hu]
    rfl
  have gives_of (hquiet : s.quiet i.cl f.array [f.base, f.cbase] = true) {st : Nat} {t' s' : Chain}
      (ho : s.mergeOutcome i f = (st, t', s')) (hst : st ≠ 0) (hsame : f.base = f.cbase → (t', s') = (tr, sr)) : gives st t' s' :=
    have h := ends_of hquiet ho (if_neg hst) rfl hsame fun _ _ => rfl
    ⟨_, h.1, h.2⟩
  refine ⟨fun h => hexec.trans (guarded_false _ _ h), fun hquiet htables => ?_, fun hquiet htables => ?_⟩
  · refine gives_of hquiet ?_ (by decide) fun _ => rfl
    rw [State.mergeOutcome]
    refine if_pos ?_
    rw [← Bool.not_eq_false, Bool.or_eq_false_iff]
    exact htables
  have hout : s.mergeOutcome i f = mergeRecords (f.base = f.cbase) tr sr tbad sbad := by
    rw [State.mergeOutcome]
    refine if_neg ?_
    rw [Bool.not_eq_true, Bool.or_eq_false_iff]
    exact htables
  have hagree : agree ↔ decide (f.base = f.cbase) = false ∧ tr.agrees sr := by
    rw [decide_eq_false_iff_not]
    exact Iff.rfl
  have all_agree (ha : agree) (ht : live tr = true) (hs : live sr = true) :
      decide (f.base = f.cbase) = false ∧ tr.agrees sr ∧ tr.live = true ∧ sr.live = true :=
    ⟨(hagree.mp ha).1, (hagree.mp ha).2, ht, hs⟩
  have open_live {r : Chain} (h : r.st = 1) : live r = true := Chain.live_iff.mpr (.inl h)
  have hit_open {r : Chain} {b : Nat} (h : hit r b = true) : r.st = 1 := by
    simp only [hit, Bool.and_eq_true, decide_eq_true_eq] at h
    exact h.1
  refine ⟨fun h => ?_, fun h => ?_, fun ha ht hs hp => ?_, fun ha ht hs htb hsb hfold => ?_,
    fun occ ha ht hs htb hsb hfold hlt _ hocc => ?_⟩
  · refine gives_of hquiet (hout.trans (mergeRecords_of_disagree ?_)) (by decide) fun _ => rfl
    exact fun ⟨h1, h2, _⟩ => h (hagree.mpr ⟨h1, h2⟩)
  · refine gives_of hquiet (hout.trans (mergeRecords_of_disagree ?_)) (by decide) fun _ => rfl
    rintro ⟨-, -, ht, hs⟩
    rcases h with h | h
    · exact Bool.false_ne_true (h.symm.trans ht)
    · exact Bool.false_ne_true (h.symm.trans hs)
  · exact gives_of hquiet (hout.trans (mergeRecords_of_poisoned (all_agree ha ht hs) hit_open hit_open hp)) (by decide)
      fun h => absurd h ha.1
  · exact gives_of hquiet
      (hout.trans (mergeRecords_of_full (all_agree ha (open_live ht) (open_live hs)) ht hs htb hsb hfold)) (by decide)
      fun h => absurd h ha.1
  · have ho := hout.trans (mergeRecords_of_folded (all_agree ha (open_live ht) (open_live hs)) ht hs htb hsb hfold)
    obtain ⟨hne, hpair, hcorr, -⟩ := ha
    obtain ⟨hends, hmem⟩ := ends_of hquiet ho (if_pos rfl) (State.cluster_mergeTrees _) (fun h => absurd h hne)
      fun x hx => State.readByte_mergeTrees_outside hx
    refine ⟨_, hends, fun m row n hm hrow hn => ⟨?_, fun hc => ?_⟩⟩
    · rw [State.level_congr (fun x _ => hmem x) hm hrow hn]
      exact State.level_mergeTrees_raw hpair hocc hlt hm hrow hn
    · rw [State.level_congr (fun x _ => hmem x) hm hrow hn]
      exact State.level_mergeTrees_corr hpair hocc hlt hm hrow hn hcorr hc

end Sys2Proof.Machine

/-! ### Writes to a PIPE_OUT granule (R368, R373)

A PIPE_OUT granule is a window onto an outbound route and holds no data: what an agent writes there leaves as PIPE frames. A
statement that finds the written bytes in memory afterwards fails there. -/

namespace Sys2Proof.Machine

/-- Granule 5 of memory-die space. -/
def pipeWindow : Nat := 5 * 0x400_0000

/-- A stage over compute die 0 whose plan gives granule 5 to an outbound route on port 0. -/
def pipeStage : Stage where
  st := 2
  epoch := 1
  cfg := some { quantStage with runs := [{ first := 5, count := 1, kind := 8, space := 0 }] }
  model := some { weightBytes := 0, segSeed := zeros 32, package := [], placed := [] }
  ins := []
  outs := [{ port := 0, peer := 1, first := 5, count := 1, base := 0, gen := 0 }]
  step := none
  why := .command
  waiters := []
  lead := 0
  turn := 0
  turnOver := false
  posts := []
  scrub := none
  scrubAt := 0
  scrubPos := []
  due := []
  shadowOf := none

/-- A dense unbricked tensor of one element. -/
def oneElement (ty base : Nat) : Nat := 1 + ty * 2 ^ 4 + 2 ^ 16 + base * 2 ^ 64 + 2 ^ 224

/-! #### MOV.COPY -/

/-- A MOV of one element from the tensor in descriptor slot 0 to the one in slot 1; s4 holds the extent. -/
def pipeCopy : MovF where
  nowait := false
  mover := 0
  trans := false
  sdesc := 0
  sreg := 0
  ddesc := 1
  dreg := 0
  ereg := 4
  areg := 0

/-- Cluster 0 comes to the MOV: its source, in the cluster's operand memory, holds 1.0, and its destination lies in the
PIPE_OUT granule. -/
def copyIntoPipe : State :=
  let c : Cluster := { Cluster.init with
    st := .running, imem := [(0, TileWord.mov 0 quantIssue pipeCopy)], sregs := [(4, 1)]
    dslots := [(0, oneElement tyF32 0x10_0000_0000), (1, oneElement tyF32 pipeWindow)] }
  ((State.reset.setStage 0 pipeStage).setCluster 0 c).writeLE 0x10_0000_0000 4 0x3F80_0000

theorem exec_movCopy_copyIntoPipe :
    exec (.movCopy quantIssue pipeCopy) copyIntoPipe = .next (copyIntoPipe.movStart 0 quantIssue pipeCopy) := by
  show copyIntoPipe.mov 0 quantIssue pipeCopy = _
  rw [State.mov, guarded_true _ _ (by decide +kernel), if_pos (by decide +kernel)]

/-- What the MOV has written into the window is not there once the MOV has begun. -/
theorem copyIntoPipe_keeps_no_data :
    (copyIntoPipe.movStart 0 quantIssue pipeCopy).readByte (pipeWindow + 3) = 0 := by decide +kernel

/-- Refutes O21: the statement finds the bytes that a MOV writes in memory afterwards. A MOV.COPY of 1.0 whose destination
lies in a PIPE_OUT granule leaves them as a PIPE frame, and the window reads 0 (R368, R373). -/
theorem not_moverResults : ¬ Obligations.MoverResults := by
  unfold Obligations.MoverResults
  intro h
  obtain ⟨-, h⟩ := h (.movCopy quantIssue pipeCopy) 0 quantIssue pipeCopy copyIntoPipe (by simp) (by decide +kernel)
    (by decide +kernel) (by decide +kernel) (by decide +kernel)
  obtain ⟨-, -, -, -, hmoves⟩ := h (by decide +kernel)
  obtain ⟨t, ht, e, -, -, hbytes⟩ := hmoves (by decide +kernel) (by decide +kernel) (by decide)
  obtain rfl := Host.Outcome.next.inj (exec_movCopy_copyIntoPipe.symm.trans ht)
  exact absurd (copyIntoPipe_keeps_no_data.symm.trans (hbytes (pipeWindow + 3))) (by decide +kernel)

/-! #### STQ -/

/-- An STQ of one element of v1 into the tensor in descriptor slot 0, through the quantizer record that s2 names; s4 holds the
shape. -/
def pipeStq : VecF where
  prec := false
  vd := 1
  va := 0
  vb := 0
  vc := 0
  bscal := false
  men := false
  mask := 0
  nowait := false
  opa := (0, 0)
  opb := (0, 0)
  opc := (0, 0)
  opd := (0, 0)
  ope := (0, 0)
  qreg := 2
  lreg := 4
  cat := 0
  preg := 0

/-- Cluster 0 comes to the STQ: an unbricked E8 tensor in its operand memory, a record whose outlier map names channel 0, and
a side tensor that lies in the PIPE_OUT granule. -/
def sideIntoPipe : State :=
  let c : Cluster := { Cluster.init with
    st := .running, imem := [(0, TileWord.vec 0x22 quantIssue pipeStq)], sregs := [(2, 0x10_0000_2000), (4, 2 ^ 32 + 1)]
    dslots := [(0, oneElement tyE8 0x10_0000_0000)], v := [(256, 0x3F80_0000)] }
  let target := 5
  let outEn := 2 ^ 10
  let record := (((State.reset.setStage 0 pipeStage).setCluster 0 c).writeLE 0x10_0000_2004 4 (target + outEn))
  let fields := (record.writeLE 0x10_0000_2018 5 pipeWindow).writeLE 0x10_0000_2020 5 0x10_0000_3000
  fields.writeLE 0x10_0000_3000 8 (1 + 64 * 2 ^ 32)

theorem exec_stq_sideIntoPipe :
    exec (.stq quantIssue pipeStq) sideIntoPipe = .next (sideIntoPipe.vecStart 0x22 quantIssue pipeStq) := by
  show sideIntoPipe.vec 0x22 quantIssue pipeStq = _
  rw [State.vec, guarded_true _ _ (by decide +kernel), if_pos (by decide +kernel)]

theorem sideIntoPipe_keeps_no_data :
    (sideIntoPipe.vecStart 0x22 quantIssue pipeStq).readByte (pipeWindow + 4) = 0 := by decide +kernel

/-- Refutes O24: the statement finds every byte that the quantizer writes in memory after an STQ. The header of a side tensor
that lies in a PIPE_OUT granule leaves as a PIPE frame, and the window reads 0 (R90, R368, R373). -/
theorem not_vectorLoadStore : ¬ Obligations.VectorLoadStore := by
  unfold Obligations.VectorLoadStore
  intro h
  obtain ⟨-, -, -, hstq⟩ := h quantIssue pipeStq sideIntoPipe (by decide +kernel)
  obtain ⟨t, ht, -, -, hbytes, -⟩ := hstq (by decide +kernel) (by decide +kernel) (by decide +kernel) (by decide +kernel)
  obtain rfl := Host.Outcome.next.inj (exec_stq_sideIntoPipe.symm.trans ht)
  exact absurd (sideIntoPipe_keeps_no_data.symm.trans (hbytes (pipeWindow + 4))) (by decide +kernel)

end Sys2Proof.Machine

/-! ### Frames go out

What sending leaves unchanged: a port that sends keeps its link, and the module keeps everything but its ports, the frames
it has put on the wire and the random values it has drawn (R324, R328). -/

namespace Sys2Proof.Machine

/-- What a port that has sent frames still has: its link, and the frame it received last. A NAK that was not due is not due
now, and a port that is down has sent nothing. -/
structure Port.keepsLink (q q' : Port) : Prop where
  link : q' = { q with txSeq := q'.txSeq, nak := q'.nak, credits := q'.credits, free := q'.free, retrans := q'.retrans,
                       waiting := q'.waiting, pipes := q'.pipes }
  nak : q.nak = false → q'.nak = false
  retrans : q.up = false → q'.retrans = q.retrans

namespace Port.keepsLink

variable {q q' q'' : Port}

theorem refl (q : Port) : q.keepsLink q := ⟨rfl, id, fun _ => rfl⟩

theorem up (h : q.keepsLink q') : q'.up = q.up := (congrArg Port.up h.link :)
theorem rxSeq (h : q.keepsLink q') : q'.rxSeq = q.rxSeq := (congrArg Port.rxSeq h.link :)
theorem wrap (h : q.keepsLink q') : q'.wrap = q.wrap := (congrArg Port.wrap h.link :)
theorem trained (h : q.keepsLink q') : q'.trained = q.trained := (congrArg Port.trained h.link :)
theorem fails (h : q.keepsLink q') : q'.fails = q.fails := (congrArg Port.fails h.link :)

theorem trans (h : q.keepsLink q') (g : q'.keepsLink q'') : q.keepsLink q'' where
  link := g.link.trans (congrArg (fun x : Port => { x with
    txSeq := q''.txSeq, nak := q''.nak, credits := q''.credits, free := q''.free, retrans := q''.retrans
    waiting := q''.waiting, pipes := q''.pipes }) h.link)
  nak hq := g.nak (h.nak hq)
  retrans hq := (g.retrans (h.up.trans hq)).trans (h.retrans hq)

end Port.keepsLink

/-- Nothing but the ports, the wire and the random values drawn has changed. -/
def State.onlyPorts (s t : State) : Prop := t = { s with ports := t.ports, wire := t.wire, draws := t.draws }

namespace State.onlyPorts

variable {s t u : State}

theorem refl (s : State) : s.onlyPorts s := rfl

theorem trans (h : s.onlyPorts t) (g : t.onlyPorts u) : s.onlyPorts u :=
  Eq.trans g (congrArg (fun x : State => { x with ports := u.ports, wire := u.wire, draws := u.draws }) h)

theorem jobs (h : s.onlyPorts t) : t.jobs = s.jobs := (congrArg State.jobs h :)
theorem job (h : s.onlyPorts t) (i : Nat) : t.job i = s.job i := congrArg (Table.find · i) h.jobs
theorem stages (h : s.onlyPorts t) : t.stages = s.stages := (congrArg State.stages h :)
theorem stage (h : s.onlyPorts t) (g : Nat) : t.stage g = s.stage g := congrArg (Table.get Stage.init · g) h.stages
theorem die (h : s.onlyPorts t) (n : Nat) : t.die n = s.die n := (congrArg (State.die · n) h :)
theorem readByte (h : s.onlyPorts t) (a : Nat) : t.readByte a = s.readByte a := (congrArg (State.readByte · a) h :)
theorem sameBytes (h : s.onlyPorts t) : s.sameBytes t := h.readByte

end State.onlyPorts

/-- Frames have gone out, or wait to: nothing but the ports, the wire and the draws has changed, every port has its link, and
the wire has grown. -/
structure State.sends (s t : State) : Prop where
  rest : s.onlyPorts t
  port : ∀ n, (s.port n).keepsLink (t.port n)
  wire : s.wire <:+ t.wire

namespace State.sends

variable {s t u : State}

theorem refl (s : State) : s.sends s := ⟨.refl s, fun _ => .refl _, List.suffix_rfl⟩

theorem trans (h : s.sends t) (g : t.sends u) : s.sends u where
  rest := h.rest.trans g.rest
  port n := (h.port n).trans (g.port n)
  wire := h.wire.trans g.wire

end State.sends

/-- A change of one port that keeps its link. -/
theorem State.sends_setPort (s : State) {p : Nat} {q : Port} (h : (s.port p).keepsLink q) : s.sends (s.setPort p q) where
  rest := rfl
  port n := by
    by_cases hn : n = p
    · subst hn; rwa [State.setPort_self]
    · rw [State.setPort_other _ _ _ hn]; exact .refl _
  wire := List.suffix_rfl

theorem State.sends_send (s : State) (o : Out) : s.sends (s.send o) := ⟨rfl, fun _ => .refl _, List.suffix_cons _ _⟩

theorem State.sends_random (s : State) (n : Nat) : s.sends (s.random n).2 := ⟨rfl, fun _ => .refl _, List.suffix_rfl⟩

theorem State.sends_putFrame (s : State) (p seq : Nat) (b : Bytes) : s.sends (s.putFrame p seq b) := by
  refine (s.sends_setPort (p := p) ?_).trans (State.sends_send _ _)
  exact ⟨rfl, fun _ => rfl, fun _ => rfl⟩

/-- Only a port that is up launches frames. -/
theorem State.sends_launch (s : State) {p : Nat} {b : Bytes} (h : (s.port p).maySend b = true) : s.sends (s.launch p b) := by
  have hup : (s.port p).up = true := by
    simp only [Port.maySend, Bool.and_eq_true] at h
    exact h.1.1
  have hput := s.sends_putFrame p (s.port p).txSeq b
  refine hput.trans (State.sends_setPort _ ⟨rfl, id, fun hdown => ?_⟩)
  rw [(hput.port p).up, hup] at hdown
  exact absurd hdown (by decide)

theorem State.sends_pump (s : State) (p : Nat) : s.sends (s.pump p) := by
  have walk (l : List Bytes) (x : State × List Bytes) (h : s.sends x.1) :
      s.sends (l.foldl (fun (x : State × List Bytes) b =>
        if (x.1.port p).maySend b && x.2.all fun f => classOf (fType f) ≠ classOf (fType b) then (x.1.launch p b, x.2)
        else (x.1, x.2 ++ [b])) x).1 := by
    induction l generalizing x with
    | nil => exact h
    | cons b l ih =>
      rw [List.foldl_cons]
      split
      · next hb => exact ih _ (h.trans (State.sends_launch _ (Bool.and_eq_true _ _ ▸ hb).1))
      · exact ih _ h
  exact (walk _ _ (.refl s)).trans (State.sends_setPort _ ⟨rfl, id, fun _ => rfl⟩)

theorem State.sends_sendFrames (s : State) (p : Nat) (l : List Bytes) : s.sends (s.sendFrames p l) := by
  unfold State.sendFrames
  split
  · exact .refl s
  · refine (s.sends_setPort (p := p) ?_).trans (State.sends_pump _ _)
    exact ⟨rfl, id, fun _ => rfl⟩

theorem State.sends_sendForward (s : State) (ld : Nat) (b : Bytes) : s.sends (s.sendForward ld b) := State.sends_sendFrames _ _ _

end Sys2Proof.Machine

/-! ### What is beside the rings

Completions, writes of memory, audit records, storage commands and the other work of a window boundary touch neither a port
nor a job. -/

namespace Sys2Proof.Machine

/-- A relation that every step of a fold keeps relates the ends of the fold. -/
theorem foldl_related {σ α : Type} {R : σ → σ → Prop} (refl : ∀ s, R s s) (trans : ∀ {s t u}, R s t → R t u → R s u)
    {f : σ → α → σ} (h : ∀ s x, R s (f s x)) (l : List α) (s : σ) : R s (l.foldl f s) := by
  induction l generalizing s with
  | nil => exact refl s
  | cons x l ih => exact trans (h s x) (ih _)

/-- The ports and the jobs are as before. -/
structure State.keepsRings (s t : State) : Prop where
  ports : t.ports = s.ports
  jobs : t.jobs = s.jobs

namespace State.keepsRings

variable {s t u : State}

theorem refl (s : State) : s.keepsRings s := ⟨rfl, rfl⟩

theorem trans (h : s.keepsRings t) (g : t.keepsRings u) : s.keepsRings u := ⟨g.ports.trans h.ports, g.jobs.trans h.jobs⟩

theorem foldl {α : Type} {f : State → α → State} (h : ∀ (s : State) x, s.keepsRings (f s x)) (l : List α) (s : State) :
    s.keepsRings (l.foldl f s) := foldl_related .refl .trans h l s

theorem job (h : s.keepsRings t) (i : Nat) : t.job i = s.job i := congrArg (Table.find · i) h.jobs

end State.keepsRings

variable (s : State)

/-! #### Completions -/

theorem State.keepsRings_setQp (n : Nat) (q : Qp) : s.keepsRings (s.setQp n q) := ⟨rfl, rfl⟩

theorem State.keepsRings_writeEntry (n : Nat) (c : Cmd) (p : Comp) : s.keepsRings (s.writeEntry n c p) := ⟨rfl, rfl⟩

theorem State.keepsRings_settleClose (n : Nat) : s.keepsRings (s.settleClose n) := by
  unfold State.settleClose
  extract_lets q
  split
  · split
    · split
      · exact ⟨rfl, rfl⟩
      · exact .refl s
    · exact .refl s
  · split
    · exact ⟨rfl, rfl⟩
    · exact .refl s
  · exact .refl s

theorem State.keepsRings_post (r : CmdRef) (p : Comp) : s.keepsRings (s.post r p) := by
  unfold State.post
  extract_lets q
  split
  · exact .refl s
  · split
    · split
      · exact .refl s
      · exact ⟨rfl, rfl⟩
    · extract_lets last
      split
      · exact ⟨rfl, rfl⟩
      · split
        · exact (s.keepsRings_setQp _ _).trans (State.keepsRings_settleClose _ _)
        · exact (s.keepsRings_writeEntry _ _ _).trans (State.keepsRings_settleClose _ _)

theorem State.keepsRings_finish (r : CmdRef) (status r0 r1 : Nat) : s.keepsRings (s.finish r status r0 r1) :=
  s.keepsRings_post _ _

theorem State.keepsRings_deliver (g : Nat) (r : CmdRef) (p : Comp) : s.keepsRings (s.deliver g r p) := by
  unfold State.deliver
  split
  · split
    · exact ⟨rfl, rfl⟩
    · exact s.keepsRings_post r p
  · exact s.keepsRings_post r p

/-! #### Memory -/

theorem State.keepsRings_setStage (g : Nat) (x : Stage) : s.keepsRings (s.setStage g x) := ⟨rfl, rfl⟩

theorem State.keepsRings_writeByte (a : Nat) (b : Byte) : s.keepsRings (s.writeByte a b) := by
  unfold State.writeByte
  split <;> exact ⟨rfl, rfl⟩

theorem State.keepsRings_writeBytes (a : Nat) (b : Bytes) : s.keepsRings (s.writeBytes a b) := by
  induction b generalizing s a with
  | nil => exact .refl s
  | cons x b ih => exact (s.keepsRings_writeByte a x).trans (ih _ _)

theorem State.keepsRings_zeroRange (a len : Nat) : s.keepsRings (s.zeroRange a len) := ⟨rfl, rfl⟩

theorem State.keepsRings_unpoison (a n : Nat) : s.keepsRings (s.unpoison a n) := by
  unfold State.unpoison
  extract_lets s1
  split <;> exact ⟨rfl, rfl⟩

theorem State.keepsRings_carryPoison (src dst n : Nat) : s.keepsRings (s.carryPoison src dst n) :=
  (s.keepsRings_unpoison dst n).trans ⟨rfl, rfl⟩

theorem State.keepsRings_writeBlock (i : Nat) (j : Job) (k : Nat) (body : Bytes) : s.keepsRings (s.writeBlock i j k body) := by
  refine State.keepsRings.foldl (fun s g => ?_) _ s
  split
  · exact .refl s
  · split
    · exact s.keepsRings_writeBytes _ _
    · exact ((s.keepsRings_writeBytes _ _).trans (State.keepsRings_writeBytes _ _ _)).trans (State.keepsRings_writeBytes _ _ _)

theorem State.keepsRings_writeHalf (i : Nat) (j : Job) (k : Nat) (half : Bool) (body : Bytes) :
    s.keepsRings (s.writeHalf i j k half body) := by
  refine State.keepsRings.foldl (fun s g => ?_) _ s
  split
  · exact .refl s
  · split
    · exact s.keepsRings_writeBytes _ _
    · exact .refl s

/-! #### The gradient buffer and the shadow region -/

theorem State.keepsRings_resetBuf (i : Nat) (j : Job) (sigma : Nat) : s.keepsRings (s.resetBuf i j sigma) :=
  (s.keepsRings_zeroRange _ _).trans (State.keepsRings_writeBytes _ _ _)

theorem State.keepsRings_dropShadow (i : Nat) (j : Job) : s.keepsRings (s.dropShadow i j) := by
  unfold State.dropShadow
  split
  · split
    · exact .refl s
    · exact ⟨rfl, rfl⟩
  · exact .refl s

theorem State.keepsRings_shadowCopy (i : Nat) (j : Job) (c : StageCfg) : s.keepsRings (s.shadowCopy i j c) :=
  ((s.keepsRings_writeBytes _ _).trans (State.keepsRings_carryPoison _ _ _ _)).trans (State.keepsRings_setStage _ _ _)

theorem State.keepsRings_discardBuf (i : Nat) (j : Job) : s.keepsRings (s.discardBuf i j) := by
  unfold State.discardBuf
  split
  · exact (s.keepsRings_resetBuf _ _ _).trans (State.keepsRings_dropShadow _ _ _)
  · extract_lets t
    refine (s.keepsRings_resetBuf i j (s.bufSigma j)).trans ?_
    split
    · split
      · exact State.keepsRings_shadowCopy _ _ _ _
      · exact .refl _
    · exact .refl _

theorem State.keepsRings_rescaleBuf (i : Nat) (j : Job) : s.keepsRings (s.rescaleBuf i j) := by
  unfold State.rescaleBuf
  extract_lets old
  split
  · exact .refl s
  · exact (State.keepsRings.foldl (fun s k => s.keepsRings_writeBytes _ _) _ s).trans (State.keepsRings_writeBytes _ _ _)

theorem State.keepsRings_settleBuf (i : Nat) (j : Job) (keep : Bool) : s.keepsRings (s.settleBuf i j keep) := by
  unfold State.settleBuf
  split
  · split
    · exact s.keepsRings_resetBuf _ _ _
    · exact s.keepsRings_discardBuf _ _
  · split
    · exact .refl s
    · exact s.keepsRings_rescaleBuf _ _

/-! #### Packages, audit records and residency -/

theorem State.keepsRings_costumes (c : Costumes) : s.keepsRings { s with costumes := c } := ⟨rfl, rfl⟩

theorem State.keepsRings_sealPackage {s t : State} {magic : String} {customer model gen cid : Nat} {wrapped img p : Bytes}
    (h : s.sealPackage magic customer model gen cid wrapped img = some (p, t)) : s.keepsRings t := by
  unfold State.sealPackage at h
  split at h
  · cases h
  · extract_lets uses r at h
    split at h
    · cases h
    · injection h with h
      injection h with _ h
      subst h
      exact ⟨rfl, rfl⟩

theorem State.keepsRings_nvmeIssue (write : Bool) (c nsid slba len : Nat) (data : Bytes) (why : NvmeFor) :
    s.keepsRings (s.nvmeIssue write c nsid slba len data why) := ⟨rfl, rfl⟩

theorem State.keepsRings_audit (i event stage gen count : Nat) (w : Who) (f : AuditFlags) :
    s.keepsRings (s.audit i event stage gen count w f) := ⟨rfl, rfl⟩

theorem State.keepsRings_releaseBuffers (i : Nat) : s.keepsRings (s.releaseBuffers i) := by
  refine State.keepsRings.foldl (fun s r => ?_) _ s
  split
  · exact .refl s
  · unfold State.vacate
    split <;> exact ⟨rfl, rfl⟩

end Sys2Proof.Machine

/-! ### What an exchange leaves of links and jobs

Whatever a ring frame brings about on a member, every port that is up stays up with the frame that it received last. Short of a
decision and of the end of a job, a job also keeps its σ, its CLEAN and whether it closes. -/

namespace Sys2Proof.Machine

/-- Every port is up or down as before, with the frame that it received last. -/
structure State.keepsLinks (s t : State) : Prop where
  up : ∀ n, (t.port n).up = (s.port n).up
  rxSeq : ∀ n, (t.port n).rxSeq = (s.port n).rxSeq

/-- The job goes on under its loss scale, and is to close where it was. -/
structure Job.keepsScale (j j' : Job) : Prop where
  sigma : j'.sigma = j.sigma
  clean : j'.clean = j.clean
  closing : j'.closing = j.closing

/-- The links are as before, and every job goes on under its loss scale. -/
structure State.steady (s t : State) : Prop extends s.keepsLinks t where
  job : ∀ k j, s.job k = some j → ∃ j', t.job k = some j' ∧ j.keepsScale j'

section
variable {s t u : State}

theorem State.keepsLinks.refl (s : State) : s.keepsLinks s := ⟨fun _ => rfl, fun _ => rfl⟩

theorem State.keepsLinks.trans (h : s.keepsLinks t) (g : t.keepsLinks u) : s.keepsLinks u :=
  ⟨fun n => (g.up n).trans (h.up n), fun n => (g.rxSeq n).trans (h.rxSeq n)⟩

theorem Job.keepsScale.refl (j : Job) : j.keepsScale j := ⟨rfl, rfl, rfl⟩

theorem Job.keepsScale.trans {j j' j'' : Job} (h : j.keepsScale j') (g : j'.keepsScale j'') : j.keepsScale j'' :=
  ⟨g.sigma.trans h.sigma, g.clean.trans h.clean, g.closing.trans h.closing⟩

theorem State.steady.refl (s : State) : s.steady s := ⟨.refl s, fun _ j h => ⟨j, h, .refl j⟩⟩

theorem State.steady.links (h : s.steady t) : s.keepsLinks t := h.tokeepsLinks

theorem State.steady.trans (h : s.steady t) (g : t.steady u) : s.steady u where
  tokeepsLinks := h.links.trans g.links
  job k j hj := by
    obtain ⟨j1, h1, k1⟩ := h.job k j hj
    obtain ⟨j2, h2, k2⟩ := g.job k j1 h1
    exact ⟨j2, h2, k1.trans k2⟩

theorem State.steady.foldl {α : Type} {f : State → α → State} (h : ∀ (s : State) x, s.steady (f s x)) (l : List α) (s : State) :
    s.steady (l.foldl f s) := foldl_related .refl .trans h l s

theorem State.keepsRings.steady (h : s.keepsRings t) : s.steady t where
  up n := by rw [State.port, State.port, h.ports]
  rxSeq n := by rw [State.port, State.port, h.ports]
  job k j hj := ⟨j, (h.job k).trans hj, .refl j⟩

theorem State.sends.steady (h : s.sends t) : s.steady t where
  up n := (h.port n).up
  rxSeq n := (h.port n).rxSeq
  job k j hj := ⟨j, (h.rest.job k).trans hj, .refl j⟩

end

variable (s : State)

theorem State.steady_setJob {s : State} {i : Nat} {j j' : Job} (hj : s.job i = some j)
    (h : j.keepsScale j' := by exact ⟨rfl, rfl, rfl⟩) : s.steady (s.setJob i j') where
  up _ := rfl
  rxSeq _ := rfl
  job k jk hk := by
    by_cases hki : k = i
    · subst hki
      obtain rfl := Option.some.inj (hj.symm.trans hk)
      exact ⟨j', State.setJob_self _ _ _, h⟩
    · exact ⟨jk, (State.setJob_other _ _ _ hki).trans hk, .refl jk⟩

theorem State.keepsLinks_setJob (i : Nat) (j : Job) : s.keepsLinks (s.setJob i j) := ⟨fun _ => rfl, fun _ => rfl⟩

theorem State.keepsLinks_jobs (l : Tab Job) : s.keepsLinks { s with jobs := l } := ⟨fun _ => rfl, fun _ => rfl⟩

theorem State.steady_setPort {p : Nat} {q : Port} (hup : q.up = (s.port p).up) (hseq : q.rxSeq = (s.port p).rxSeq) :
    s.steady (s.setPort p q) where
  up n := by
    by_cases hn : n = p
    · subst hn; rwa [State.setPort_self]
    · rw [State.setPort_other _ _ _ hn]
  rxSeq n := by
    by_cases hn : n = p
    · subst hn; rwa [State.setPort_self]
    · rw [State.setPort_other _ _ _ hn]
  job _ j hj := ⟨j, hj, .refl j⟩

/-! #### Jobs and rings -/

theorem State.steady_mapJob (i : Nat) {f : Job → Job}
    (h : ∀ j : Job, j.keepsScale (f j) := by exact fun _ => ⟨rfl, rfl, rfl⟩) : s.steady (s.mapJob i f) := by
  unfold State.mapJob
  split
  · next hj => exact State.steady_setJob hj (h _)
  · exact .refl s

theorem State.steady_mapRing (i : Nat) (f : Ring → Ring) : s.steady (s.mapRing i f) := by
  unfold State.mapRing
  split
  · next hj => exact State.steady_setJob hj
  · exact .refl s

theorem State.steady_ringAdd (i k n : Nat) : s.steady (s.ringAdd i k n) := s.steady_mapRing _ _

theorem State.steady_ringSend (i plane : Nat) (f : FrameOut) (body : Bytes) : s.steady (s.ringSend i plane f body) := by
  unfold State.ringSend
  split
  · exact .refl s
  · split
    · exact .refl s
    · extract_lets counted key n d head k x t
      have hd : s.steady d.2 := by
        dsimp only [d]
        split
        · exact (s.sends_random _).steady
        · exact .refl s
      exact (hd.trans (State.steady_mapRing _ _ _)).trans (State.sends_sendForward _ _ _).steady

theorem State.steady_sendForm (i : Nat) : s.steady (s.sendForm i) := by
  unfold State.sendForm
  split
  · exact .refl s
  · split
    · exact .refl s
    · exact (s.steady_mapRing _ _).trans (State.steady_ringSend _ _ _ _ _)

theorem State.steady_endWrap (ld : Nat) : s.steady (s.endWrap ld) := by
  unfold State.endWrap
  split
  · exact .refl s
  · refine State.steady.foldl (fun s p => ?_) _ s
    split
    · exact s.steady_setPort rfl rfl
    · exact .refl s

theorem State.steady_endWraps : s.steady s.endWraps := State.steady.foldl (fun s ld => s.steady_endWrap ld) _ s

theorem State.steady_leaveRing (i joinStatus : Nat) : s.steady (s.leaveRing i joinStatus) := by
  unfold State.leaveRing
  split
  · exact .refl s
  · split
    · exact .refl s
    · next r _ =>
      extract_lets s1 s2
      have h1 : s.steady s1 := by
        dsimp only [s1]
        split
        · exact (s.keepsRings_finish _ _ _ _).steady
        · exact s.steady_ringSend _ _ _ _
      have h2 : s1.steady s2 := by
        dsimp only [s2]
        split
        · exact (s1.keepsRings_finish _ _ _ _).steady
        · exact .refl s1
      refine (h1.trans h2).trans (State.steady.trans ?_ (State.steady_endWraps _))
      split
      · next hj => exact State.steady_setJob hj
      · exact .refl s2

/-! #### A window boundary -/

theorem State.steady_endFeed (i status : Nat) (cut : Bool) : s.steady (s.endFeed i status cut) := by
  unfold State.endFeed
  split
  · exact .refl s
  · next hj =>
    split
    · exact .refl s
    · exact (State.steady_setJob hj).trans (State.keepsRings_deliver _ _ _ _).steady

theorem State.steady_endFeeds (i status : Nat) : s.steady (s.endFeeds i status) := by
  unfold State.endFeeds
  split
  · exact .refl s
  · next j hj =>
    extract_lets s1
    have h1 : s.steady s1 := by
      dsimp only [s1]
      split
      · exact s.steady_endFeed _ _ _
      · exact .refl s
    refine h1.trans ?_
    split
    · exact .refl s1
    · next j1 hj1 =>
      have h2 := State.keepsRings.foldl (fun (s : State) (f : Feed) => s.keepsRings_finish f.cmd status 0 0) j1.feeds s1
      exact h2.steady.trans (State.steady_setJob ((h2.job i).trans hj1))

theorem State.steady_takeCheckpoint (i : Nat) (q : Option CkReq) : s.steady (s.takeCheckpoint i q) := by
  unfold State.takeCheckpoint
  split
  · exact .refl s
  · next j hj =>
    split
    · exact State.steady_setJob hj
    · next img _ =>
      extract_lets s1 e
      have h1 : s.steady s1 := State.steady_setJob hj
      refine h1.trans ?_
      split
      · split
        · exact (s1.keepsRings_finish _ _ _ _).steady
        · exact .refl s1
      · next p t hseal =>
        have ht : s1.steady t := (State.keepsRings_sealPackage hseal).steady
        extract_lets spans old t1
        split
        · split
          · exact (s1.keepsRings_finish _ _ _ _).steady
          · exact .refl s1
        · have h2 : s1.steady t1 := by
            dsimp only [t1]
            exact (ht.trans ((t.keepsRings_costumes _).steady.trans (State.steady_mapJob _ i))).trans
              (State.keepsRings.foldl (fun (s : State) (x : Nat × Nat) => s.keepsRings_unpoison x.1 x.2) _ _).steady
          split
          · exact h2
          · split
            · refine h2.trans (State.steady.trans ?_ (State.keepsRings_nvmeIssue _ _ _ _ _ _ _ _).steady)
              exact (t1.keepsRings_costumes _).steady.trans (State.steady_mapJob _ _)
            · exact h2.trans ((State.keepsRings_audit _ _ _ _ _ _ _ _).trans (State.keepsRings_finish _ _ _ _ _)).steady

theorem State.steady_takePending (i : Nat) : s.steady (s.takePending i) := by
  unfold State.takePending
  split
  · exact .refl s
  · split
    · exact s.steady_takeCheckpoint _ _
    · exact .refl s

theorem State.steady_endPaused (i : Nat) : s.steady (s.endPaused i) := by
  unfold State.endPaused
  split
  · exact .refl s
  · next j hj =>
    split
    · exact .refl s
    · split
      · exact (State.steady_setJob hj).trans
          (State.keepsRings.foldl (fun (s : State) (f : Feed) => s.keepsRings_finish f.cmd j.pauseStatus 0 0) _ _).steady
      · exact ((s.steady_endFeeds _ _).trans (State.steady_mapJob _ _)).trans (State.steady_takePending _ _)

theorem State.steady_closeExchange (i : Nat) : s.steady (s.closeExchange i) := by
  unfold State.closeExchange
  split
  · exact .refl s
  · next r _ =>
    extract_lets s1 s2 s3
    have h1 : s.steady s1 := by
      dsimp only [s1]
      split
      · exact s.steady_ringAdd _ _ _
      · exact .refl s
    have h3 : s.steady s3 := (h1.trans (s1.steady_mapRing _ _)).trans s2.steady_endWraps
    refine h3.trans ?_
    split
    · exact .refl s3
    · split
      · exact s3.steady_leaveRing _ _
      · split
        · exact s3.steady_sendForm _
        · exact .refl s3

theorem State.keepsLinks_activate (i : Nat) : s.keepsLinks (s.activate i) := by
  unfold State.activate
  split
  · exact .refl s
  · split
    · exact (s.keepsLinks_setJob _ _).trans ((State.keepsRings_zeroRange _ _ _).trans (State.keepsRings_writeBytes _ _ _)).steady.links
    · exact .refl s

theorem State.keepsLinks_activateAll : s.keepsLinks s.activateAll :=
  foldl_related .refl .trans (fun s p => s.keepsLinks_activate p.2) _ s

theorem State.keepsLinks_closeJob (i status : Nat) : s.keepsLinks (s.closeJob i status) := by
  unfold State.closeJob
  split
  · exact .refl s
  · next j _ =>
    extract_lets s1 s2 s3 s4 s5 e s7 s8
    have h1 : s.steady s1 := (s.steady_leaveRing _ _).trans (State.steady_endFeeds _ _ _)
    have h2 : s1.keepsRings s2 := by
      dsimp only [s2]
      split
      · exact s1.keepsRings_finish _ _ _ _
      · exact .refl s1
    have h3 : s2.keepsRings s3 := by
      dsimp only [s3]
      split
      · exact s2.keepsRings_finish _ _ _ _
      · exact .refl s2
    have h4 : s3.keepsRings s4 := by
      dsimp only [s4]
      split
      · exact s3.keepsRings_zeroRange _ _
      · exact .refl s3
    have h5 : s4.keepsRings s5 := (s4.keepsRings_dropShadow _ _).trans (State.keepsRings_releaseBuffers _ _)
    have h7 : s5.keepsRings s7 := ⟨rfl, rfl⟩
    have h8 : s7.keepsRings s8 := s7.keepsRings_audit _ _ _ _ _ _ _
    have beside : s1.keepsRings s8 := ((((h2.trans h3).trans h4).trans h5).trans h7).trans h8
    refine (h1.trans beside.steady).links.trans ?_
    exact (s8.keepsLinks_jobs _).trans (State.keepsLinks_activateAll _)

end Sys2Proof.Machine

namespace Sys2Proof.Machine

variable (s : State)

/-! #### A decision -/

/-- The state before a boundary ends its job, where the job is to close there. -/
theorem State.boundary_cases (i : Nat) (sealed : Bool) : ∃ t, s.steady t ∧ (s.boundary i sealed = t ∨
    ∃ j c cmd, t.job i = some j ∧ j.closing = some (c, cmd) ∧ s.boundary i sealed = t.closeJob i c) := by
  unfold State.boundary
  split
  · exact ⟨s, .refl s, .inl rfl⟩
  · next j _ =>
    extract_lets absent wantCk st ended s1 s2 s3 s4 s5
    have h1 : s.steady s1 := s.steady_mapJob _
    have h2 : s1.steady s2 := by
      dsimp only [s2]
      split
      · exact s1.steady_takeCheckpoint _ _
      · exact .refl s1
    have h3 : s2.steady s3 := (s2.keepsRings_settleBuf _ _ _).steady
    have h4 : s3.steady s4 := by
      dsimp only [s4]
      split
      · exact (s3.steady_mapJob _).trans (State.steady_endFeed _ _ _ _)
      · exact s3.steady_mapJob _
    have h5 : s4.steady s5 := (s4.steady_endPaused _).trans (State.steady_closeExchange _ _)
    refine ⟨s5, (((h1.trans h2).trans h3).trans h4).trans h5, ?_⟩
    split
    · next j' hj' =>
      split
      · next c cmd hc =>
        split
        · exact .inr ⟨j', c, cmd, hj', hc, rfl⟩
        · exact .inl rfl
      · exact .inl rfl
    · exact .inl rfl

theorem State.keepsLinks_boundary (i : Nat) (sealed : Bool) : s.keepsLinks (s.boundary i sealed) := by
  obtain ⟨t, h, hb | ⟨_, c, _, _, _, hb⟩⟩ := s.boundary_cases i sealed
  · rw [hb]; exact h.links
  · rw [hb]; exact h.links.trans (t.keepsLinks_closeJob i c)

theorem State.keepsLinks_decided (i : Nat) (apply : Bool) (sigma clean status : Nat) :
    s.keepsLinks (s.decided i apply sigma clean status) := by
  unfold State.decided
  split
  · exact .refl s
  · split
    · exact (s.keepsLinks_setJob _ _).trans (State.keepsLinks_boundary _ _ _)
    · exact s.keepsLinks_setJob _ _

theorem State.keepsLinks_applyVerdict (i : Nat) (j : Job) (d : Bool × Nat × Nat × Nat) (ckpt : Bool) :
    s.keepsLinks (s.applyVerdict i j d ckpt) :=
  (s.steady_mapRing _ _).links.trans (State.keepsLinks_decided _ _ _ _ _ _)

theorem State.keepsLinks_sendLap2 (i : Nat) (j : Job) (r : Ring) (d : Bool × Nat × Nat × Nat) (ckpt : Bool) :
    s.keepsLinks (s.sendLap2 i j r d ckpt) := by
  unfold State.sendLap2
  extract_lets t
  have ht : s.keepsLinks t := (s.steady_ringSend _ _ _ _).links
  split
  · exact ht
  · exact ht.trans (t.keepsLinks_applyVerdict _ _ _ _)

theorem State.steady_sendLap1 (i : Nat) (j : Job) (r : Ring) (attempt : Nat) : s.steady (s.sendLap1 i j r attempt) :=
  (s.steady_mapRing _ _).trans (State.steady_ringSend _ _ _ _ _)

theorem State.steady_tryLead (i : Nat) : s.steady (s.tryLead i) := by
  unfold State.tryLead
  split
  · exact .refl s
  · split
    · exact .refl s
    · split
      · exact s.steady_sendLap1 _ _ _ _
      · exact .refl s

theorem State.keepsLinks_lap1In (i : Nat) (j : Job) (r : Ring) (b : Bytes) : s.keepsLinks (s.lap1In i j r b) := by
  unfold State.lap1In
  extract_lets a o fl forward ovf cause x d r1 s1
  have hforward (s : State) (samples : Nat) (body : Bytes) : s.steady (forward s samples body) :=
    (s.steady_mapRing _ _).trans (State.steady_ringSend _ _ _ _ _)
  have h1 : s.steady s1 := s.steady_mapRing _ _
  split
  · split
    · split
      · exact (s.steady_ringSend _ _ _ _).links
      · exact (s.steady_ringAdd _ _ _).links
    · exact (s.steady_ringAdd _ _ _).links
  · split
    · split
      · exact s.keepsLinks_sendLap2 _ _ _ _ _
      · exact .refl s
    · split
      · exact h1.links
      · split
        · exact (h1.trans (hforward _ _ _)).links
        · split
          · exact (h1.trans (s1.steady_mapRing _ _)).links
          · exact (h1.trans (hforward _ _ _)).links

theorem State.keepsLinks_lap2In (i : Nat) (j : Job) (r : Ring) (b : Bytes) : s.keepsLinks (s.lap2In i j r b) := by
  unfold State.lap2In
  split
  · exact .refl s
  · exact (s.steady_ringSend _ _ _ _).links.trans (State.keepsLinks_applyVerdict _ _ _ _ _)

/-! #### Joining -/

theorem State.steady_reshard (i : Nat) : s.steady (s.reshard i) := by
  unfold State.reshard
  split
  · exact .refl s
  · next hj => exact State.steady_setJob hj

theorem State.steady_joined (i : Nat) : s.steady (s.joined i) := by
  unfold State.joined
  split
  · split
    · exact ((s.steady_mapRing _ _).trans (State.keepsRings_finish _ _ _ _ _).steady).trans (State.steady_reshard _ _)
    · exact .refl s
  · exact .refl s

theorem State.steady_refuse (i : Nat) : s.steady (s.refuse i) := (s.steady_mapRing _ _).trans (State.steady_ringSend _ _ _ _ _)

theorem State.steady_refuseIn (i : Nat) (r : Ring) : s.steady (s.refuseIn i r) := by
  unfold State.refuseIn
  split
  · exact (s.steady_mapJob _).trans (State.keepsRings_finish _ _ _ _ _).steady
  · split
    · exact s.steady_mapRing _ _
    · exact s.steady_ringSend _ _ _ _

theorem State.steady_welcomed (i : Nat) : s.steady (s.welcomed i) := by
  unfold State.welcomed
  split
  · exact .refl s
  · extract_lets occupied
    split
    · exact s.steady_refuseIn _ _
    · exact s.steady_joined _

theorem State.steady_formIn (i : Nat) (j : Job) (r : Ring) (b : Bytes) : s.steady (s.formIn i j r b) := by
  unfold State.formIn
  extract_lets slot body salt back pred2 changed again s1 same s2 s3 s4
  split
  · split
    · exact (s.steady_mapJob _).trans (State.keepsRings_finish _ _ _ _ _).steady
    · exact s.steady_refuse _
  · split
    · exact (s.steady_mapRing _ _).trans (State.steady_joined _ _)
    · have h1 : s.steady s1 := s.steady_mapRing _ _
      have h2 : s1.steady s2 := by
        dsimp only [s2]
        split
        · exact .refl s1
        · exact s1.steady_refuse _
      have h3 : s2.steady s3 := s2.steady_welcomed _
      have h4 : s3.steady s4 := by
        dsimp only [s4]
        split
        · exact s3.steady_sendForm _
        · exact .refl s3
      exact (((h1.trans h2).trans h3).trans h4).trans (s4.steady_mapRing _ _)

/-! #### The reduce phase and publication -/

theorem State.steady_sendPacket (i plane : Nat) (p : Packet) : s.steady (s.sendPacket i plane p) :=
  (s.steady_mapRing _ _).trans (State.steady_ringSend _ _ _ _ _)

theorem State.steady_addPacket (i : Nat) (j : Job) (rings : Nat) (p : Packet) : s.steady (s.addPacket i j rings p) :=
  (s.steady_ringAdd _ _ _).trans (State.steady_sendPacket _ _ _ _)

theorem State.steady_finishBlock (i : Nat) (j : Job) (p : Packet) (here : Bool) : s.steady (s.finishBlock i j p here) := by
  unfold State.finishBlock
  extract_lets w g bad c s1 s2
  have h1 : s.steady s1 := by
    dsimp only [s1]
    split
    · exact (s.keepsRings_writeBytes _ _).steady
    · exact .refl s
  exact ((h1.trans (s1.steady_mapRing _ _)).trans (s2.steady_ringAdd _ _ _)).trans (State.steady_ringAdd _ _ _ _)

theorem State.steady_holdFrame (i : Nat) (b : Bytes) : s.steady (s.holdFrame i b) := s.steady_mapRing _ _

theorem State.steady_reduceIn (i : Nat) (j : Job) (r : Ring) (b : Bytes) : s.steady (s.reduceIn i j r b) := by
  unfold State.reduceIn
  extract_lets p k mine
  split
  · exact s.steady_ringAdd _ _ _
  · split
    · exact s.steady_holdFrame _ _
    · split
      · exact s.steady_holdFrame _ _
      · split
        · exact s.steady_finishBlock _ _ _ _
        · exact s.steady_sendPacket _ _ _
      · split
        · exact s.steady_holdFrame _ _
        · split
          · exact s.steady_finishBlock _ _ _ _
          · exact s.steady_addPacket _ _ _ _

theorem State.steady_originate (i : Nat) : s.steady (s.originate i) := by
  unfold State.originate
  split
  · exact .refl s
  · split
    · exact .refl s
    · split
      · refine State.steady.foldl (fun s t => ?_) _ s
        extract_lets k e
        split
        · exact .refl s
        · split
          · exact s.steady_addPacket _ _ _ _
          · exact s.steady_sendPacket _ _ _
      · exact .refl s

theorem State.steady_openExchange (i : Nat) (own : Bool) : s.steady (s.openExchange i own) := by
  unfold State.openExchange
  split
  · exact .refl s
  · split
    · exact .refl s
    · extract_lets here
      split
      · exact s.steady_mapRing _ _
      · exact (s.steady_mapRing _ _).trans (State.steady_ringSend _ _ _ _ _)

theorem State.steady_paramIn (i : Nat) (j : Job) (r : Ring) (b : Bytes) : s.steady (s.paramIn i j r b) := by
  unfold State.paramIn
  extract_lets k half two s1 whole s2 s3
  split
  · exact .refl s
  · split
    · exact s.steady_ringAdd _ _ _
    · split
      · exact s.steady_holdFrame _ _
      · split
        · exact s.steady_ringAdd _ _ _
        · have h1 : s.keepsRings s1 := by
            dsimp only [s1]
            split
            · exact s.keepsRings_writeBlock _ _ _ _
            · split
              · exact s.keepsRings_writeHalf _ _ _ _ _
              · exact s.keepsRings_writeBlock _ _ _ _
          have h2 : s1.steady s2 := s1.steady_mapJob _ fun j => by split <;> exact ⟨rfl, rfl, rfl⟩
          exact ((h1.steady.trans h2).trans (s2.steady_mapRing _ _)).trans (s3.steady_ringSend _ _ _ _)

/-! #### A ring frame -/

theorem State.keepsLinks_ringDeal (i : Nat) (b : Bytes) : s.keepsLinks (s.ringDeal i b) := by
  unfold State.ringDeal
  split
  · exact .refl s
  · split
    · exact .refl s
    · extract_lets ty x
      split
      · exact (s.steady_formIn _ _ _ _).links
      · split
        · exact (s.steady_refuseIn _ _).links
        · split
          · exact (s.steady_mapRing _ _).links
          · split
            · exact .refl s
            · split
              · exact (s.steady_holdFrame _ _).links
              · split
                · exact s.keepsLinks_lap1In _ _ _ _
                · split
                  · exact (s.steady_ringAdd _ _ _).links
                  · split
                    · exact (s.steady_openExchange _ _).links
                    · split
                      · exact s.keepsLinks_lap2In _ _ _ _
                      · split
                        · exact (s.steady_reduceIn _ _ _ _).links
                        · exact (s.steady_paramIn _ _ _ _).links

theorem State.keepsLinks_retryHeld (i : Nat) : s.keepsLinks (s.retryHeld i) := by
  unfold State.retryHeld
  split
  · exact (s.steady_mapRing _ _).links.trans (foldl_related .refl .trans (fun s b => s.keepsLinks_ringDeal i b) _ _)
  · exact .refl s

theorem State.keepsLinks_settleRing (i : Nat) : s.keepsLinks (s.settleRing i) :=
  (((s.steady_originate i).links.trans (State.keepsLinks_retryHeld _ i)).trans (State.keepsLinks_retryHeld _ i)).trans
    (State.steady_tryLead _ i).links

theorem State.steady_noteSender (i : Nat) (r : Ring) (slot : Nat) : s.steady (s.noteSender i r slot) := by
  unfold State.noteSender
  split
  · split
    · exact (s.steady_mapRing _ _).trans (State.steady_ringAdd _ _ _ _)
    · exact .refl s
  · exact .refl s

theorem State.keepsLinks_forwardIn (ld : Nat) (b : Bytes) : s.keepsLinks (s.forwardIn ld b) := by
  unfold State.forwardIn
  split
  · exact (s.sends_sendForward _ _).steady.links
  · split
    · exact (s.sends_sendForward _ _).steady.links
    · split
      · split
        · exact (s.steady_mapRing _ _).links
        · exact (s.steady_ringAdd _ _ _).links
      · extract_lets s1
        have h1 : s.steady s1 := by
          dsimp only [s1]
          split
          · exact .refl s
          · exact s.steady_noteSender _ _ _
        exact (h1.links.trans (s1.keepsLinks_ringDeal _ _)).trans (State.keepsLinks_settleRing _ _)

theorem State.keepsLinks_ringIn (port : Nat) (b : Bytes) : s.keepsLinks (s.ringIn port b) := by
  unfold State.ringIn
  extract_lets ld a
  split
  · exact (s.sends_sendFrames _ _).steady.links
  · exact s.keepsLinks_forwardIn _ _

end Sys2Proof.Machine

/-! ### A frame reaches a port

The link fields of a frame act on its port alone; what is delivered acts on the state that they leave; and the port then sends
what it may, with the NAK that is due (R326, R328). -/

namespace Sys2Proof

/-! #### Fields of a frame that is put together -/

/-- A field that is written as little-endian bytes reads as the number written. -/
theorem fieldAt_append_toBytes (a c : Bytes) (w n : Nat) : fieldAt (a ++ (toBytes w n ++ c)) a.length w = n % 2 ^ (8 * w) := by
  have hrun : slice (a ++ (toBytes w n ++ c)) a.length w = toBytes w n := by
    have htake : (toBytes w n ++ c).take w = toBytes w n := List.take_left' (length_toBytes w n)
    simp only [slice, List.drop_left, htake, length_toBytes, Nat.sub_self, List.replicate_zero, List.append_nil]
  rw [fieldAt, hrun, leNat_toBytes]

theorem satAdd_fst (w a b : Nat) : (satAdd w a b).1 = min (a + b) (2 ^ w - 1) := by
  unfold satAdd
  have := Nat.two_pow_pos w
  split
  · show a + b = _
    omega
  · show 2 ^ w - 1 = _
    omega

namespace Machine

/-- A frame with the link fields that it leaves with. -/
def linkFrame (credit seq ack : Nat) (nak : Bool) (b : Bytes) : Bytes :=
  b.take 1 ++ toBytes 1 credit ++ toBytes 2 seq ++ toBytes 2 ack ++ toBytes 2 (b2n nak) ++ b.drop 8

section
variable {b : Bytes} (hb : b ≠ []) (credit seq ack : Nat) (nak : Bool)
include hb

theorem length_take_one : (b.take 1).length = 1 := by
  rw [List.length_take]
  have := List.length_pos_iff.mpr hb
  omega

theorem fAck_linkFrame : fAck (linkFrame credit seq ack nak b) = ack % 2 ^ 16 := by
  have h := fieldAt_append_toBytes (b.take 1 ++ toBytes 1 credit ++ toBytes 2 seq) (toBytes 2 (b2n nak) ++ b.drop 8) 2 ack
  simpa only [linkFrame, fAck, List.append_assoc, List.length_append, length_toBytes, length_take_one hb] using h

theorem fNak_linkFrame : fNak (linkFrame credit seq ack nak b) = nak := by
  have h := fieldAt_append_toBytes (b.take 1 ++ toBytes 1 credit ++ toBytes 2 seq ++ toBytes 2 ack) (b.drop 8) 2 (b2n nak)
  simp only [List.append_assoc, List.length_append, length_toBytes, length_take_one hb] at h
  rw [fNak, linkFrame]
  simp only [List.append_assoc, h]
  cases nak <;> decide

end

variable (s : State)

theorem State.wire_putFrame (p seq : Nat) (b : Bytes) : ∃ credit, (s.putFrame p seq b).wire =
    .frame p (linkFrame credit seq (s.port p).rxSeq (s.port p).nak b) :: s.wire := ⟨_, rfl⟩

/-! #### The link fields of a received frame -/

/-- Only port `p` has changed, and what it has sent: it is up or down as before, with the frame that it received last and
the frames that wait for it. -/
structure State.relinks (p : Nat) (s t : State) : Prop where
  rest : s.onlyPorts t
  other : ∀ n, n ≠ p → t.port n = s.port n
  up : (t.port p).up = (s.port p).up
  rxSeq : (t.port p).rxSeq = (s.port p).rxSeq
  waiting : (t.port p).waiting = (s.port p).waiting
  wire : s.wire <:+ t.wire

section
variable {s t u : State} {p : Nat}

theorem State.relinks.refl (p : Nat) (s : State) : s.relinks p s := ⟨.refl s, fun _ _ => rfl, rfl, rfl, rfl, List.suffix_rfl⟩

theorem State.relinks.trans (h : s.relinks p t) (g : t.relinks p u) : s.relinks p u where
  rest := h.rest.trans g.rest
  other n hn := (g.other n hn).trans (h.other n hn)
  up := g.up.trans h.up
  rxSeq := g.rxSeq.trans h.rxSeq
  waiting := g.waiting.trans h.waiting
  wire := h.wire.trans g.wire

end

theorem State.relinks_setPort {s : State} {p : Nat} {q : Port} (hup : q.up = (s.port p).up) (hseq : q.rxSeq = (s.port p).rxSeq)
    (hwait : q.waiting = (s.port p).waiting) : s.relinks p (s.setPort p q) where
  rest := rfl
  other n hn := State.setPort_other _ _ _ hn
  up := by rw [State.setPort_self, hup]
  rxSeq := by rw [State.setPort_self, hseq]
  waiting := by rw [State.setPort_self, hwait]
  wire := List.suffix_rfl

theorem State.relinks_send (p : Nat) (o : Out) : s.relinks p (s.send o) :=
  ⟨rfl, fun _ _ => rfl, rfl, rfl, rfl, List.suffix_cons _ _⟩

theorem State.relinks_putFrame (p seq : Nat) (b : Bytes) : s.relinks p (s.putFrame p seq b) := by
  refine State.relinks.trans (u := State.send _ _) (State.relinks_setPort ?_ ?_ ?_) (State.relinks_send _ _ _)
  all_goals rfl

theorem Port.ack_link (q : Port) (a : Nat) : (q.ack a).up = q.up ∧ (q.ack a).rxSeq = q.rxSeq ∧ (q.ack a).waiting = q.waiting := by
  unfold Port.ack
  extract_lets rest
  split <;> exact ⟨rfl, rfl, rfl⟩

theorem Port.refused_link (q : Port) : q.refused.up = q.up ∧ q.refused.rxSeq = q.rxSeq ∧ q.refused.waiting = q.waiting := by
  unfold Port.refused
  split <;> exact ⟨rfl, rfl, rfl⟩

theorem State.relinks_linkIn (p : Nat) (b : Bytes) : s.relinks p (s.linkIn p b) := by
  unfold State.linkIn
  extract_lets q1 c q2
  obtain ⟨hup, hseq, hwait⟩ := (s.port p).ack_link (fAck b)
  obtain ⟨rup, rseq, rwait⟩ := q2.refused_link
  split
  · have h : s.relinks p (s.setPort p q2.refused) :=
      State.relinks_setPort (rup.trans hup) (rseq.trans hseq) (rwait.trans hwait)
    exact h.trans (foldl_related (.refl p) .trans (fun s f => s.relinks_putFrame p (fSeq f) f) _ _)
  · exact State.relinks_setPort hup hseq hwait

/-! #### The parts of a reception -/

/-- The state to which a frame in order is delivered. -/
def State.inbound (p : Nat) (b : Bytes) : State := (s.linkIn p b).setPort p { (s.linkIn p b).port p with rxSeq := fSeq b }

/-- The receive space of a delivered frame is given back. -/
def State.giveBack (p : Nat) (b : Bytes) : State :=
  match classOf (fType b) with
  | some c => s.setPort p { s.port p with free := (s.port p).free.set c (nth 0 (s.port p).free c + 1) }
  | none => s

/-- A frame out of order is discarded, and a NAK is due. -/
def State.discards (p : Nat) (b : Bytes) : State := (s.linkIn p b).setPort p { (s.linkIn p b).port p with nak := true }

/-- A port sends what it may, or an IDLE frame. -/
def State.sendDue (p : Nat) : State :=
  if (s.pump p).wire.length = s.wire.length && ((s.pump p).port p).maySend idleFrame then (s.pump p).launch p idleFrame else s.pump p

theorem State.inOrder_linkIn (p : Nat) (b : Bytes) : ((s.linkIn p b).port p).inOrder b = (s.port p).inOrder b := by
  rw [Port.inOrder, Port.inOrder, (s.relinks_linkIn p b).rxSeq]

theorem State.received_of_inOrder {s : State} {p : Nat} {b : Bytes} (h : (s.port p).inOrder b = true) (deliver : State → State) :
    s.received p b deliver = ((deliver (s.inbound p b)).giveBack p b).sendDue p := by
  rw [← State.inOrder_linkIn] at h
  unfold State.received
  extract_lets s1 q s2 q2 s3 n s4
  have h3 : s3 = (deliver (s.inbound p b)).giveBack p b := if_pos h
  rw [← h3]
  rfl

theorem State.received_of_outOfOrder {s : State} {p : Nat} {b : Bytes} (h : (s.port p).inOrder b = false)
    (deliver : State → State) : s.received p b deliver = (s.discards p b).sendDue p := by
  rw [← State.inOrder_linkIn] at h
  unfold State.received
  extract_lets s1 q s2 q2 s3 n s4
  have h3 : s3 = s.discards p b := if_neg (ne_true_of_eq_false h)
  rw [← h3]
  rfl

theorem State.received_congr {s : State} {p : Nat} {b : Bytes} {d d' : State → State} (h : (s.port p).inOrder b = true)
    (hd : d (s.inbound p b) = d' (s.inbound p b)) : s.received p b d = s.received p b d' := by
  rw [State.received_of_inOrder h, State.received_of_inOrder h, hd]

theorem State.onlyPorts_inbound (p : Nat) (b : Bytes) : s.onlyPorts (s.inbound p b) :=
  (s.relinks_linkIn p b).rest.trans rfl

theorem State.port_inbound_other {p n : Nat} (b : Bytes) (h : n ≠ p) : (s.inbound p b).port n = s.port n :=
  (State.setPort_other _ _ _ h).trans ((s.relinks_linkIn p b).other n h)

theorem State.rxSeq_inbound (p : Nat) (b : Bytes) : ((s.inbound p b).port p).rxSeq = fSeq b := by
  rw [State.inbound, State.setPort_self]

theorem State.up_inbound (p : Nat) (b : Bytes) : ((s.inbound p b).port p).up = (s.port p).up := by
  rw [State.inbound, State.setPort_self]
  exact (s.relinks_linkIn p b).up

theorem State.sends_giveBack (p : Nat) (b : Bytes) : s.sends (s.giveBack p b) := by
  unfold State.giveBack
  split
  · exact s.sends_setPort ⟨rfl, id, fun _ => rfl⟩
  · exact .refl s

theorem State.sends_sendDue (p : Nat) : s.sends (s.sendDue p) := by
  unfold State.sendDue
  split
  · next h => exact (s.sends_pump p).trans (State.sends_launch _ (Bool.and_eq_true _ _ ▸ h).2)
  · exact s.sends_pump p

/-- What follows a delivery sends frames. -/
theorem State.sends_afterDelivery (p : Nat) (b : Bytes) : s.sends ((s.giveBack p b).sendDue p) :=
  (s.sends_giveBack p b).trans (State.sends_sendDue _ p)

/-! #### A NAK goes out (R328) -/

/-- Since `s`, port `p` asks for frames again after the one that it received last. -/
structure State.asks (s x : State) (p : Nat) : Prop where
  wire : s.wire <:+ x.wire
  rxSeq : (x.port p).rxSeq = (s.port p).rxSeq
  asked : s.asksAgain x p

section
variable {s x : State} {p : Nat}

theorem State.asks_of_nak (hwire : s.wire <:+ x.wire) (hseq : (x.port p).rxSeq = (s.port p).rxSeq)
    (hnak : (x.port p).nak = true) : s.asks x p := ⟨hwire, hseq, .inl hnak⟩

/-- The first frame that leaves carries the NAK that is due. -/
theorem State.asks.launch (h : s.asks x p) {b : Bytes} (hb : b ≠ []) (hmay : (x.port p).maySend b = true) :
    s.asks (x.launch p b) p := by
  have hsends := State.sends_launch x hmay
  refine ⟨h.wire.trans hsends.wire, (hsends.port p).rxSeq.trans h.rxSeq, ?_⟩
  obtain ⟨credit, hwire⟩ : ∃ credit, (x.launch p b).wire =
    .frame p (linkFrame credit (x.port p).txSeq (x.port p).rxSeq (x.port p).nak b) :: x.wire := x.wire_putFrame _ _ _
  have hlen := h.wire.length_le
  rcases h.asked with hnak | ⟨g, n, hn, hg, hgnak, hgack⟩
  · refine .inr ⟨_, 0, ?_, congrArg (·[0]?) hwire, ?_, ?_⟩
    · rw [hwire, List.length_cons]; omega
    · rw [fNak_linkFrame hb, hnak]
    · rw [fAck_linkFrame hb, h.rxSeq]
  · refine .inr ⟨g, n + 1, ?_, ?_, hgnak, hgack⟩
    · rw [hwire, List.length_cons]; omega
    · rw [hwire, List.getElem?_cons_succ, hg]

theorem State.asks.pump (h : s.asks x p) (hne : ∀ w ∈ (x.port p).waiting, w ≠ []) : s.asks (x.pump p) p := by
  have walk (l : List Bytes) (hl : ∀ w ∈ l, w ≠ []) (y : State × List Bytes) (hy : s.asks y.1 p) :
      s.asks (l.foldl (fun (x : State × List Bytes) b =>
        if (x.1.port p).maySend b && x.2.all fun f => classOf (fType f) ≠ classOf (fType b) then (x.1.launch p b, x.2)
        else (x.1, x.2 ++ [b])) y).1 p := by
    induction l generalizing y with
    | nil => exact hy
    | cons b l ih =>
      have hl' : ∀ w ∈ l, w ≠ [] := fun w hw => hl w (List.mem_cons_of_mem _ hw)
      rw [List.foldl_cons]
      split
      · next hb => exact ih hl' _ (hy.launch (hl b List.mem_cons_self) (Bool.and_eq_true _ _ ▸ hb).1)
      · exact ih hl' _ hy
  obtain ⟨hwire, hseq, hasked⟩ := walk _ hne (x, []) h
  refine ⟨hwire, ?_, ?_⟩
  · rw [State.pump, State.setPort_self]; exact hseq
  · rw [State.asksAgain, State.pump, State.setPort_self]; exact hasked

theorem State.asks.sendDue (h : s.asks x p) (hne : ∀ w ∈ (x.port p).waiting, w ≠ []) : s.asks (x.sendDue p) p := by
  unfold State.sendDue
  split
  · next hmay => exact (h.pump hne).launch (by decide) (Bool.and_eq_true _ _ ▸ hmay).2
  · exact h.pump hne

end

theorem State.asks_discards (p : Nat) (b : Bytes) : s.asks (s.discards p b) p := by
  refine State.asks_of_nak (s.relinks_linkIn p b).wire ?_ ?_
  · rw [State.discards, State.setPort_self]; exact (s.relinks_linkIn p b).rxSeq
  · rw [State.discards, State.setPort_self]

theorem State.onlyPorts_discards (p : Nat) (b : Bytes) : s.onlyPorts (s.discards p b) := (s.relinks_linkIn p b).rest.trans rfl

theorem State.waiting_discards (p : Nat) (b : Bytes) : ((s.discards p b).port p).waiting = (s.port p).waiting := by
  rw [State.discards, State.setPort_self]
  exact (s.relinks_linkIn p b).waiting

end Machine

end Sys2Proof

/-! ### Frames in and out of order, PIPE frames and ports (R324-R329, R374, R469, R522) -/

namespace Sys2Proof.Machine

/-- The rows of the ring frames, by frame type (Table Frame types). -/
def ringRows (f : FrameIn) : List (Nat × Instr) := [(0x10, .openFrame f), (0x11, .form f), (0x12, .refuse f), (0x13, .leave f),
  (0x14, .verdict f), (0x18, .reduce f), (0x19, .param f)]

/-- The rows of the frames whose type is not reserved. -/
def frameRows (f : FrameIn) : List (Nat × Instr) := (0, .idle f) :: (1, .pipe f) :: ringRows f

theorem exec_of_mem_ringRows {f : FrameIn} {x : Nat × Instr} (h : x ∈ ringRows f) (s : State) : exec x.2 s = s.ringRow f x.1 := by
  simp only [ringRows, List.mem_cons, List.not_mem_nil, or_false] at h
  rcases h with rfl | rfl | rfl | rfl | rfl | rfl | rfl <;> rfl

section
variable {s : State} {f : FrameIn} (hport : f.port < 2 * s.dev.part.lds) (hup : (s.port f.port).up = true)
include hport hup

theorem State.accepts_of_up {ty : Nat} (hty : fType f.bytes = ty) : s.accepts f ty = true := by
  simp only [State.accepts, hport, hup, hty, decide_true, Bool.and_self]

theorem State.ringRow_of_up {ty : Nat} (hty : fType f.bytes = ty) :
    s.ringRow f ty = .next (s.received f.port f.bytes fun s => s.ringIn f.port f.bytes) :=
  guarded_true _ _ (State.accepts_of_up hport hup hty)

theorem exec_reservedFrame_of_up (hty : reservedType (fType f.bytes) = true) :
    exec (.reservedFrame f) s = .next (s.received f.port f.bytes fun s => s.addTagFail (fRing f.bytes)) :=
  guarded_true _ _ (by simp only [hport, hup, hty, decide_true, Bool.and_self])

theorem exec_pipe_of_up (hty : fType f.bytes = 1) :
    exec (.pipe f) s = .next (s.received f.port f.bytes fun s => s.pipeIn f.port f.bytes) :=
  guarded_true _ _ (State.accepts_of_up hport hup hty)

end

/-! #### What is delivered keeps the links -/

theorem State.keepsLinks_addTagFail (s : State) (ring : Nat) : s.keepsLinks (s.addTagFail ring) := by
  unfold State.addTagFail
  split
  · split
    · exact s.keepsLinks_setJob _ _
    · exact .refl s
  · exact .refl s

theorem State.keepsRings_pipeIn (s : State) (port : Nat) (b : Bytes) : s.keepsRings (s.pipeIn port b) := by
  unfold State.pipeIn
  extract_lets g st mine run
  split
  · exact .refl s
  · split
    · exact .refl s
    · extract_lets x t
      have ht : s.keepsRings t := s.keepsRings_setStage _ _
      split
      · exact (ht.trans (t.keepsRings_writeBytes _ _)).trans (State.keepsRings_unpoison _ _ _)
      · exact ht

/-- A frame of each row is received, and what is delivered keeps the links. -/
theorem exec_frame {f : FrameIn} {i : Instr}
    (h : (fType f.bytes, i) ∈ frameRows f ∨ reservedType (fType f.bytes) = true ∧ i = .reservedFrame f) :
    ∃ deliver : State → State, (∀ y : State, y.keepsLinks (deliver y)) ∧ ∀ s : State, f.port < 2 * s.dev.part.lds →
      (s.port f.port).up = true → exec i s = .next (s.received f.port f.bytes deliver) := by
  rcases h with h | ⟨hty, rfl⟩
  · rcases List.mem_cons.mp h with h | h
    · obtain ⟨hty, rfl⟩ := Prod.mk.inj h
      exact ⟨id, .refl, fun s hport hup => guarded_true _ _ (State.accepts_of_up hport hup hty)⟩
    rcases List.mem_cons.mp h with h | h
    · obtain ⟨hty, rfl⟩ := Prod.mk.inj h
      exact ⟨_, fun y => (y.keepsRings_pipeIn _ _).steady.links, fun s hport hup => exec_pipe_of_up hport hup hty⟩
    · exact ⟨_, fun y => y.keepsLinks_ringIn _ _, fun s hport hup =>
        (exec_of_mem_ringRows h s).trans (State.ringRow_of_up hport hup rfl)⟩
  · exact ⟨_, fun y => y.keepsLinks_addTagFail _, fun s hport hup => exec_reservedFrame_of_up hport hup hty⟩

/-- A frame in order becomes the port's latest received frame. -/
theorem State.port_received_of_inOrder {s : State} {p : Nat} {b : Bytes} (h : (s.port p).inOrder b = true)
    {deliver : State → State} (hd : ∀ y : State, y.keepsLinks (deliver y)) :
    ((s.received p b deliver).port p).rxSeq = fSeq b ∧ ((s.received p b deliver).port p).up = (s.port p).up := by
  rw [State.received_of_inOrder h]
  have hlinks := (hd (s.inbound p b)).trans (State.sends_afterDelivery _ p b).steady.links
  exact ⟨(hlinks.rxSeq p).trans (s.rxSeq_inbound p b), (hlinks.up p).trans (s.up_inbound p b)⟩

/-- A frame out of order is asked for again and changes nothing else. -/
theorem State.received_outOfOrder {s : State} {p : Nat} {b : Bytes} (h : (s.port p).inOrder b = false) (deliver : State → State) :
    s.onlyPorts (s.received p b deliver) ∧ ((s.received p b deliver).port p).rxSeq = (s.port p).rxSeq ∧
      ((∀ w ∈ (s.port p).waiting, w ≠ []) → s.asksAgain (s.received p b deliver) p) := by
  rw [State.received_of_outOfOrder h]
  have hsends := (s.discards p b).sends_sendDue p
  refine ⟨(s.onlyPorts_discards p b).trans hsends.rest, (hsends.port p).rxSeq.trans (s.asks_discards p b).rxSeq, fun hne => ?_⟩
  exact ((s.asks_discards p b).sendDue (by rwa [State.waiting_discards])).asked

/-! #### Frames of a reserved type (R329) -/

theorem State.job_of_jobs {s : State} {k : Nat} {j : Job} (h : s.jobs = [(k, j)]) : s.job k = some j := by
  rw [State.job, h]
  exact if_pos rfl

theorem State.addTagFail_of_ring {s : State} {k : Nat} {j : Job} {r : Ring} {ring : Nat} (hjobs : s.jobs = [(k, j)])
    (hring : j.ring = some r) (hjoin : r.joining = none) (hid : r.id = ring) :
    ∃ r', s.addTagFail ring = s.setJob k { j with ring := some r' } ∧ r'.stat.tagFails = min (r.stat.tagFails + 1) 0xFFFFFFFF := by
  unfold State.addTagFail
  rw [hjobs, List.find?_cons_of_pos (by simp [hring, hjoin, hid])]
  simp only [hring]
  exact ⟨_, rfl, satAdd_fst _ _ _⟩

/-! #### PIPE frames (R374) -/

theorem InRoute.gone_of_not_ready {r r' : InRoute} {seed : Bytes} {g st : Nat} {b : Bytes} {o : Option Bytes} (hst : st ≠ 2)
    (h : r.arrives seed g st b = (r', o)) : o = none ∧ r'.gone = min (r.gone + 1) 0xFFFFFFFF := by
  rw [InRoute.arrives, if_pos hst] at h
  obtain ⟨rfl, rfl⟩ := Prod.mk.inj h
  exact ⟨rfl, satAdd_fst _ _ _⟩

theorem State.stage_writeBytes (s : State) (a : Nat) (b : Bytes) (g : Nat) : (s.writeBytes a b).stage g = s.stage g := by
  induction b generalizing s a with
  | nil => rfl
  | cons x b ih =>
    rw [State.writeBytes, ih]
    unfold State.writeByte
    split <;> rfl

theorem State.stage_unpoison (s : State) (a n g : Nat) : (s.unpoison a n).stage g = s.stage g := by
  unfold State.unpoison
  extract_lets t
  split <;> rfl

/-- The IN routes of a frame's port and sender, and of these the ones whose run holds its address. -/
def InRoute.mine (port : Nat) (b : Bytes) (r : InRoute) : Bool := r.port = port && r.peer = fSender b
def InRoute.names (b : Bytes) (r : InRoute) : Bool :=
  r.first * 0x400_0000 ≤ pipeAddr b && pipeAddr b < (r.first + r.count) * 0x400_0000

section
variable {s : State} {port k : Nat} {b : Bytes} {r r' : InRoute} {o : Option Bytes}
  (hroute : ((s.stage (bits (fRing b) 0 4)).ins.findIdx? fun r => r.mine port b && r.names b) = some k ∨
    ((s.stage (bits (fRing b) 0 4)).ins.findIdx? fun r => r.mine port b && r.names b) = none ∧
      (s.stage (bits (fRing b) 0 4)).ins.findIdx? (·.mine port b) = some k)
  (hr : (s.stage (bits (fRing b) 0 4)).ins[k]? = some r)
  (harrives : r.arrives (((s.stage (bits (fRing b) 0 4)).model.map (·.segSeed)).getD []) (bits (fRing b) 0 4)
    (s.stage (bits (fRing b) 0 4)).st b = (r', o))
include hroute hr harrives

/-- The route takes the frame, and its run the body that it admits. -/
theorem State.pipeIn_of_route : s.pipeIn port b =
    (o.elim id fun body t => (t.writeBytes (pipeAddr b) body).unpoison (pipeAddr b) body.length)
      (s.setStage (bits (fRing b) 0 4) { s.stage (bits (fRing b) 0 4) with ins := (s.stage (bits (fRing b) 0 4)).ins.set k r' }) := by
  unfold State.pipeIn
  extract_lets g st mine run
  have hrun : (run <|> st.ins.findIdx? mine) = some k := by
    have hassoc : run = st.ins.findIdx? fun r => r.mine port b && r.names b :=
      congrArg (st.ins.findIdx? ·) (funext fun r => Bool.and_assoc _ _ _)
    rcases hroute with h | ⟨hnone, h⟩
    · rw [hassoc, h]; rfl
    · rw [hassoc, hnone]; exact h
  rw [hrun]
  dsimp only
  rw [hr]
  dsimp only
  rw [harrives]
  cases o <;> rfl

theorem State.stage_pipeIn : (s.pipeIn port b).stage (bits (fRing b) 0 4) =
    { s.stage (bits (fRing b) 0 4) with ins := (s.stage (bits (fRing b) 0 4)).ins.set k r' } := by
  rw [State.pipeIn_of_route hroute hr harrives]
  cases o with
  | none => exact State.setStage_self _ _ _
  | some body =>
    exact (State.stage_unpoison _ _ _ _).trans ((State.stage_writeBytes _ _ _ _).trans (State.setStage_self _ _ _))

theorem State.readByte_pipeIn_none (ho : o = none) : s.sameBytes (s.pipeIn port b) := by
  subst ho
  rw [State.pipeIn_of_route hroute hr harrives]
  exact fun _ => rfl

theorem State.readByte_pipeIn_body {body : Bytes} (ho : o = some body) :
    (∀ n, n < body.length → (s.pipeIn port b).readByte (pipeAddr b + n) = nth 0 body n) ∧
      ∀ a, a < pipeAddr b ∨ pipeAddr b + body.length ≤ a → (s.pipeIn port b).readByte a = s.readByte a := by
  subst ho
  rw [State.pipeIn_of_route hroute hr harrives]
  exact ⟨fun n hn => (State.readByte_unpoison _ _ _ _).trans (State.readByte_writeBytes_inside _ _ _ _ hn),
    fun a ha => (State.readByte_unpoison _ _ _ _).trans (State.readByte_writeBytes_outside _ _ _ ha)⟩

end

/-! #### A port goes down (R324) -/

/-- A module without jobs sends the frames of a port that is down on the other one, or keeps them (R324). -/
theorem State.forwardIn_of_no_jobs {s : State} (h : s.jobs = []) (ld : Nat) (b : Bytes) : s.forwardIn ld b = s.sendForward ld b := by
  unfold State.forwardIn
  rw [h]
  rfl

/-- The port as it goes down: frames of pipelines stay. -/
def Port.downed (q : Port) : Port :=
  { Port.init with wrap := true, retrans := q.retrans.filter fun b => fType b = 1
                   waiting := q.waiting.filter fun b => fType b = 1, pipes := q.pipes }

theorem State.keepsLink_portDown {s : State} (h : s.jobs = []) (n : Nat) :
    (s.port n).downed.keepsLink ((s.portDown n).port n) := by
  unfold State.portDown
  extract_lets q ld all pipe fresh s1 s2 s3
  have hforget : s1.keepsRings s2 := by
    refine State.keepsRings.foldl (fun s g => ?_) _ s1
    split
    · exact s.keepsRings_setStage _ _
    · exact .refl s
  have hjobs : s2.jobs = [] := hforget.jobs.trans h
  have hport : s2.port n = (s.port n).downed := by
    rw [State.port, hforget.ports]
    exact State.setPort_self _ _ _
  clear_value s2
  have h3 : s3 = s2 := by
    dsimp only [s3]
    rw [hjobs, List.foldl_nil]
  clear_value s3
  subst h3
  have hsends (l : List Bytes) (t : State) (ht : t.jobs = []) :
      t.sends (l.foldl (fun s b => if n % 2 = 1 then s.sendFrames (2 * ld) [b] else s.forwardIn ld b) t) := by
    refine foldl_related (R := fun s t => s.jobs = [] → s.sends t) (fun s _ => .refl s)
      (fun h g hs => (h hs).trans (g ((h hs).rest.jobs.trans hs))) (fun s b hs => ?_) l t ht
    split
    · exact s.sends_sendFrames _ _
    · rw [State.forwardIn_of_no_jobs hs]
      exact s.sends_sendForward _ _
  rw [← hport]
  exact (hsends _ _ hjobs).port n

/-! #### A port trains (R521, R522) -/

theorem State.sends_trained (s : State) {n : Nat} {q : Port} (hup : q.up = true) (hempty : q.retrans = []) :
    (s.setPort n q).sends (((s.setPort n q).launch n idleFrame).pump n) := by
  refine (State.sends_launch _ ?_).trans (State.sends_pump _ _)
  have hclass : classOf (fType idleFrame) = none := by decide
  rw [State.setPort_self, Port.maySend, hup, hempty, hclass]
  rfl

/-! #### A frame fails parity (R326, R469) -/

/-- Nothing but the host interface has changed. -/
def State.onlyHost (s t : State) : Prop := t = { s with host := t.host }

section
variable {s t : State} (h : s.onlyHost t)
include h
theorem State.onlyHost.port (n : Nat) : t.port n = s.port n := (congrArg (State.port · n) h :)
theorem State.onlyHost.die (n : Nat) : t.die n = s.die n := (congrArg (State.die · n) h :)
theorem State.onlyHost.wire : t.wire = s.wire := (congrArg State.wire h :)
theorem State.onlyHost.readByte (a : Nat) : t.readByte a = s.readByte a := (congrArg (State.readByte · a) h :)
end

theorem State.onlyHost_event (s : State) (k : Nat) : s.onlyHost (s.event k) := by
  unfold State.event
  split <;> rfl

/-- Counting a recovered error changes the die's counters, and the host's events. -/
theorem State.addCorrectable_eq (s : State) (die : Nat) : ∃ d, (s.setDie die d).onlyHost (s.addCorrectable die) ∧
    d.correctable = min ((s.die die).correctable + 1) 0xFFFFFFFF ∧ d.log = (s.die die).log := by
  unfold State.addCorrectable
  extract_lets d r h t
  obtain ⟨d', ht, hcorr, hlog⟩ : ∃ d', t = s.setDie die d' ∧ d'.correctable = r.1 ∧ d'.log = d.log := ⟨_, rfl, rfl, rfl⟩
  refine ⟨d', ?_, hcorr.trans (satAdd_fst _ _ _), hlog⟩
  rw [← ht]
  split
  · exact (rfl : t.onlyHost t)
  · exact t.onlyHost_event 1

theorem State.setDie_setDie (s : State) (n : Nat) (d d' : Die) : (s.setDie n d).setDie n d' = s.setDie n d' :=
  congrArg (fun l : Tab Die => { s with dies := l }) (Table.set_set _ _ _ _ _)

/-- The error that a frame leaves in the log of its link die. -/
theorem State.logError_eq (s : State) (die source addr level scope status : Nat) (unrec stuck : Bool) :
    ∃ d e, s.logError die source addr level scope status unrec stuck = s.setDie die d ∧ d.correctable = (s.die die).correctable ∧
      e ∈ d.log ∧ e.source = source ∧ e.addr = addr ∧ e.status = status ∧ e.unrec = unrec :=
  ⟨_, _, rfl, rfl, List.mem_cons_self, rfl, rfl, rfl, rfl⟩

/-- A NAK is due at the port, and the die of the port has counted and logged the error. -/
def State.parityNoted (s : State) (n : Nat) : State :=
  ((s.setPort n { s.port n with nak := true }).logError (88 + n / 2) 3 (256 * (88 + n / 2) + n % 2) 2 1 0x0701 false false).addCorrectable
    (88 + n / 2)

theorem exec_frameParityFailure_of_up {s : State} {n : Nat} (hn : n < 2 * s.dev.part.lds) (hup : (s.port n).up = true) :
    exec (.frameParityFailure n) s = .next ((s.parityNoted n).sendDue n) :=
  guarded_true _ _ (by simp only [hn, hup, decide_true, Bool.and_self])

theorem State.parityNoted_eq (s : State) (n : Nat) : ∃ d e,
    ((s.setPort n { s.port n with nak := true }).setDie (88 + n / 2) d).onlyHost (s.parityNoted n) ∧
    d.correctable = min ((s.die (88 + n / 2)).correctable + 1) 0xFFFFFFFF ∧
    e ∈ d.log ∧ e.source = 3 ∧ e.addr = 256 * (88 + n / 2) + n % 2 ∧ e.status = 0x0701 ∧ e.unrec = false := by
  obtain ⟨d, e, hlog, hcorr, he, herror⟩ := (s.setPort n { s.port n with nak := true }).logError_eq
    (88 + n / 2) 3 (256 * (88 + n / 2) + n % 2) 2 1 0x0701 false false
  obtain ⟨d', hadd, hcorr', hlog'⟩ := State.addCorrectable_eq ((s.setPort n { s.port n with nak := true }).setDie (88 + n / 2) d) (88 + n / 2)
  rw [State.setDie_self] at hcorr' hlog'
  refine ⟨d', e, ?_, ?_, hlog' ▸ he, herror⟩
  · rw [State.parityNoted, hlog]
    rwa [State.setDie_setDie] at hadd
  · rw [hcorr', hcorr]
    rfl

end Sys2Proof.Machine

namespace Sys2Proof.Machine

/-- A frame of a reserved type counts in the ring that it names, and no byte changes. -/
theorem State.received_addTagFail {s : State} {p k : Nat} {b : Bytes} {j : Job} {r : Ring} (h : (s.port p).inOrder b = true)
    (hjobs : s.jobs = [(k, j)]) (hring : j.ring = some r) (hjoin : r.joining = none) (hid : r.id = fRing b) :
    ∃ j' r', (s.received p b fun s => s.addTagFail (fRing b)).job k = some j' ∧ j'.ring = some r' ∧
      r'.stat.tagFails = min (r.stat.tagFails + 1) 0xFFFFFFFF ∧ s.sameBytes (s.received p b fun s => s.addTagFail (fRing b)) := by
  have hin := s.onlyPorts_inbound p b
  obtain ⟨r', hadd, hfails⟩ := State.addTagFail_of_ring (hin.jobs.trans hjobs) hring hjoin hid
  rw [State.received_of_inOrder h, hadd]
  have hsends := State.sends_afterDelivery ((s.inbound p b).setJob k { j with ring := some r' }) p b
  exact ⟨_, r', (hsends.rest.job k).trans (State.setJob_self _ _ _), rfl, hfails,
    fun a => (hsends.rest.readByte a).trans (hin.readByte a)⟩

section
variable {s : State} {n : Nat} (hn : n < 2 * s.dev.part.lds)
include hn

theorem exec_portDown_of_trained (htrained : (s.port n).trained = true) (h : 16 ≤ (s.port n).fails ∨ (s.port n).lockLost = true) :
    exec (.portDown n) s = .next (if (s.port n).up then s.portDown n else s.setPort n { s.port n with trained := false, lockLost := false }) :=
  guarded_true _ _ (by simp [hn, htrained, h])

theorem exec_receiverLockChange_of_trained (htrained : (s.port n).trained = true) (ok : Bool) :
    exec (.receiverLockChange n ok) s = .next (s.setPort n { s.port n with lockLost := !ok }) :=
  guarded_true _ _ (by simp [hn, htrained])

theorem exec_portTrained_of_untrained (htrained : (s.port n).trained = false) (hphase : s.power.phase ≠ .off) {alike : Bool}
    {q : Port} (hq : (s.port n).retrained alike (s.exchanging (n / 2)) = q) : exec (.portTrained ⟨n, alike⟩) s = .next
      (if q.up then ((s.setPort n q).launch n idleFrame).pump n else s.setPort n q) := by
  subst hq
  exact guarded_true _ _ (by simp [hn, htrained, hphase])

end

/-- Settles O55. A reception acts on its port, delivers in order, and sends what it may; so what holds of a frame is said of its
delivery, and sending keeps the link of every port. -/
theorem frames : Obligations.Frames := by
  unfold Obligations.Frames
  refine ⟨?_, ?_, ?_⟩
  · intro f s b p rows i hrow hport hup
    obtain ⟨deliver, hlinks, hexec⟩ := exec_frame hrow
    specialize hexec s hport hup
    refine ⟨fun hseq => ?_, fun hseq => ?_, fun k j r hty hi hseq hjobs hring hjoin hid => ?_⟩
    · obtain ⟨hrx, hstays⟩ := State.port_received_of_inOrder (decide_eq_true hseq) hlinks
      exact ⟨_, hexec, hrx, hstays.trans hup⟩
    · obtain ⟨honly, hrx, hasks⟩ := State.received_outOfOrder (decide_eq_false hseq) deliver
      exact ⟨_, hexec, hrx, honly.jobs, honly.stages, honly.sameBytes, hasks⟩
    · subst hi
      obtain ⟨j', r', hreceived⟩ := State.received_addTagFail (decide_eq_true hseq) hjobs hring hjoin hid
      exact ⟨_, j', r', exec_reservedFrame_of_up hport hup hty, hreceived⟩
  · intro f s k r r' o b g x hty hport hup hseq mine names hroute hr harrives
    have horder : (s.port f.port).inOrder b = true := decide_eq_true hseq
    let u := s.inbound f.port b
    have hu : s.onlyPorts u := s.onlyPorts_inbound _ _
    have hg : u.stage g = x := hu.stage g
    have hstage := State.stage_pipeIn (s := u) (port := f.port) (hg ▸ hroute) (hg ▸ hr) (hg ▸ harrives)
    have hnone := State.readByte_pipeIn_none (s := u) (port := f.port) (hg ▸ hroute) (hg ▸ hr) (hg ▸ harrives)
    have hbody := fun body => State.readByte_pipeIn_body (s := u) (port := f.port) (body := body) (hg ▸ hroute) (hg ▸ hr) (hg ▸ harrives)
    have hsends := (u.pipeIn f.port b).sends_afterDelivery f.port b
    refine ⟨_, (exec_pipe_of_up hport hup hty).trans (congrArg _ (State.received_of_inOrder horder _)), ?_, fun ho a => ?_,
      fun hst => InRoute.gone_of_not_ready hst harrives, fun body ho => ⟨fun m hm => ?_, fun a ha => ?_⟩⟩
    · exact (hsends.rest.stage g).trans (hstage.trans (by rw [hg]))
    · exact (hsends.rest.readByte a).trans ((hnone ho a).trans (hu.readByte a))
    · exact (hsends.rest.readByte _).trans ((hbody body ho).1 m hm)
    · exact (hsends.rest.readByte a).trans (((hbody body ho).2 a ha).trans (hu.readByte a))
  · intro n s hn p pipe
    refine ⟨fun htrained => ⟨fun h hup => ?_, fun hjobs hup => ?_, fun h hup => ?_, fun hfails hlock => ?_, fun ok => ?_, fun alike => ?_⟩,
      fun htrained => ⟨fun hphase => ⟨?_, fun hup => ?_⟩, fun hphase alike => ?_, ?_, fun ok => ?_⟩, fun hup => ?_, fun hup => ?_⟩
    · exact (exec_portDown_of_trained hn htrained h).trans (congrArg _ (if_pos hup))
    · have hkeeps := State.keepsLink_portDown hjobs n
      exact ⟨hkeeps.up, hkeeps.wrap, hkeeps.trained, hkeeps.rxSeq, hkeeps.retrans rfl⟩
    · exact (exec_portDown_of_trained hn htrained h).trans (congrArg _ (if_neg (ne_true_of_eq_false hup)))
    · have hlate : ¬ 16 ≤ p.fails := by omega
      exact guarded_false _ _ (by simp [p, hlate, hlock])
    · exact exec_receiverLockChange_of_trained hn htrained ok
    · exact guarded_false _ _ (by simp [p, htrained])
    · have hup : (p.retrained false (s.exchanging (n / 2))).up = true := rfl
      have hsends := s.sends_trained (n := n) hup rfl
      have hport := hsends.port n
      rw [State.setPort_self] at hport
      have hexec := exec_portTrained_of_untrained hn htrained hphase (alike := false) rfl
      rw [if_pos hup] at hexec
      refine ⟨_, hexec, hport.up, hport.rxSeq, hport.trained, hport.nak rfl,
        hport.fails, fun hidle => hport.wrap.trans ?_⟩
      show (p.wrap && s.exchanging (n / 2)) = false
      rw [hidle, Bool.and_false]
    · rw [exec_portTrained_of_untrained hn htrained hphase (q := { p with trained := true }) rfl, if_neg (ne_true_of_eq_false hup)]
    · exact guarded_false _ _ (by simp [hphase])
    · exact guarded_false _ _ (by simp [p, htrained])
    · exact guarded_false _ _ (by simp [p, htrained])
    · obtain ⟨d, e, hnoted, hcorr, he, herror⟩ := s.parityNoted_eq n
      have hport : (s.parityNoted n).port n = { p with nak := true } := by rw [hnoted.port, State.setDie_port_of, State.setPort_self]
      have hdie : (s.parityNoted n).die (88 + n / 2) = d := by rw [hnoted.die, State.setDie_self]
      have hsends := (s.parityNoted n).sends_sendDue n
      have hasks : s.asks (s.parityNoted n) n := by
        refine State.asks_of_nak ?_ (by rw [hport]) (by rw [hport])
        rw [hnoted.wire]
        exact List.suffix_rfl
      refine ⟨_, exec_frameParityFailure_of_up hn hup, ?_, fun a => ?_, fun hne => ?_, ?_, e, ?_, herror⟩
      · rw [(hsends.port n).rxSeq, hport]
      · exact (hsends.rest.readByte a).trans (hnoted.readByte a)
      · exact (hasks.sendDue (by rw [hport]; exact hne)).asked
      · rw [hsends.rest.die, hdie, hcorr]
      · rw [hsends.rest.die, hdie]; exact he
    · exact guarded_false _ _ (by simp [p, hup])

end Sys2Proof.Machine

/-! ### What the work of a ring leaves of its job

A job of a ring keeps all but its ring, and the work that follows an event of an exchange keeps of the ring all but what
sending counts (R330, R344, R350). -/

namespace Sys2Proof.Machine

theorem Job.member_eq_some {j : Job} {r : Ring} : j.member = some r ↔ j.ring = some r ∧ r.joining = none := by
  cases hj : j.ring with
  | none => simp [Job.member, hj]
  | some x =>
    cases hx : x.joining with
    | none => simp [Job.member, hj, hx]; rintro rfl; exact hx
    | some c => simp [Job.member, hj, hx]; rintro rfl; simp [hx]

/-- Job `i` is now `j`, and no byte has changed. -/
structure State.onlyJob (i : Nat) (s : State) (j : Job) (t : State) : Prop where
  job : t.job i = some j
  bytes : s.sameBytes t

theorem State.sends.onlyJob {s u t : State} {i : Nat} {j : Job} (h : u.sends t) (hu : State.onlyJob i s j u) : State.onlyJob i s j t :=
  ⟨(h.rest.job i).trans hu.job, fun a => (h.rest.readByte a).trans (hu.bytes a)⟩

theorem State.onlyJob_setJob (s : State) (i : Nat) (j : Job) : State.onlyJob i s j (s.setJob i j) := ⟨State.setJob_self _ _ _, fun _ => rfl⟩

theorem State.onlyJob.trans {s t u : State} {i : Nat} {j j' : Job} (h : State.onlyJob i s j t) (g : State.onlyJob i t j' u) :
    State.onlyJob i s j' u := ⟨g.job, fun a => (g.bytes a).trans (h.bytes a)⟩

section
variable {s : State} {i : Nat} {j : Job} (hj : s.job i = some j)
include hj

theorem State.mapJob_of_job (f : Job → Job) : s.mapJob i f = s.setJob i (f j) := by
  rw [State.mapJob, hj]

variable {r : Ring} (hr : j.ring = some r)
include hr

theorem State.mapRing_of_ring (f : Ring → Ring) : s.mapRing i f = s.setJob i { j with ring := some (f r) } := by
  rw [State.mapRing, hj]
  show s.setJob i { j with ring := j.ring.map f } = _
  rw [hr, Option.map_some]

theorem State.onlyJob_mapRing (f : Ring → Ring) : State.onlyJob i s { j with ring := some (f r) } (s.mapRing i f) := by
  rw [State.mapRing_of_ring hj hr]
  exact s.onlyJob_setJob _ _

/-- A frame of the ring leaves, and at most the counts of its control frames change. -/
theorem State.onlyJob_ringSend (plane : Nat) (f : FrameOut) (body : Bytes) :
    ∃ q, State.onlyJob i s { j with ring := some { r with cseq := q } } (s.ringSend i plane f body) := by
  unfold State.ringSend
  split
  · next hnone => exact absurd (hnone.symm.trans hj) (by simp)
  next j' hj' =>
  obtain rfl := Option.some.inj (hj.symm.trans hj')
  split
  · next hnone => exact absurd (hnone.symm.trans hr) (by simp)
  next r' hr' =>
  obtain rfl := Option.some.inj (hr.symm.trans hr')
  extract_lets counted key n d head k x t
  have hd : s.sends d.2 := by
    dsimp only [d]
    split
    · exact s.sends_random _
    · exact .refl s
  have ht := State.onlyJob_mapRing ((hd.rest.job i).trans hj) hr
    fun r => if counted then { r with cseq := Table.set 0 r.cseq key (n + 1) } else r
  have hcseq : ∃ q, (if counted then { r with cseq := Table.set 0 r.cseq key (n + 1) } else r) = { r with cseq := q } := by
    split
    · exact ⟨_, rfl⟩
    · exact ⟨r.cseq, rfl⟩
  obtain ⟨q, hq⟩ := hcseq
  refine ⟨q, (State.sends_sendForward _ _ _).onlyJob ⟨?_, fun a => (ht.bytes a).trans (hd.rest.readByte a)⟩⟩
  rw [← hq]
  exact ht.job

/-- A change of the ring, and a frame of the ring. -/
theorem State.onlyJob_mapRing_ringSend (f : Ring → Ring) (plane : Nat) (g : FrameOut) (body : Bytes) :
    ∃ q, State.onlyJob i s { j with ring := some { f r with cseq := q } } ((s.mapRing i f).ringSend i plane g body) := by
  have h := State.onlyJob_mapRing hj hr f
  obtain ⟨q, hq⟩ := State.onlyJob_ringSend h.job rfl plane g body
  exact ⟨q, h.trans hq⟩

/-- A packet goes forward, and its block is dealt with. -/
theorem State.onlyJob_sendPacket (plane : Nat) (p : Packet) : ∃ q, State.onlyJob i s
    { j with ring := some { r with sent := p.block :: r.sent, cseq := q } } (s.sendPacket i plane p) := by
  unfold State.sendPacket
  exact State.onlyJob_mapRing_ringSend hj hr (fun r => { r with sent := p.block :: r.sent }) _ _ _

/-- The member sends lap 1 of an attempt. -/
theorem State.onlyJob_sendLap1 (j' : Job) (r' : Ring) (attempt : Nat) : ∃ q, State.onlyJob i s
    { j with ring := some { r with lap1Sent := true, attempt := attempt, seen := some (attempt, r.slot), cseq := q } }
    (s.sendLap1 i j' r' attempt) := by
  unfold State.sendLap1
  exact State.onlyJob_mapRing_ringSend hj hr (fun r => { r with lap1Sent := true, attempt := attempt, seen := some (attempt, r.slot) }) 0 _ _

end

/-! #### What follows an event -/

/-- The exchange goes on: only what has been sent and counted has changed. -/
def Ring.goesOn (r r' : Ring) : Prop :=
  r' = { r with sent := r'.sent, cseq := r'.cseq, stat := r'.stat, lap1Sent := r'.lap1Sent, attempt := r'.attempt, seen := r'.seen }

theorem Ring.goesOn.trans {r r' r'' : Ring} (h : r.goesOn r') (g : r'.goesOn r'') : r.goesOn r'' :=
  Eq.trans g (congrArg (fun x : Ring => { x with
    sent := r''.sent, cseq := r''.cseq, stat := r''.stat, lap1Sent := r''.lap1Sent, attempt := r''.attempt, seen := r''.seen }) h)

/-- The ring of a job that holds no frame goes on, and no byte changes. -/
def State.ringGoesOn (i : Nat) (s t : State) : Prop :=
  ∀ j r, s.job i = some j → j.ring = some r → r.held = [] → ∃ r', State.onlyJob i s { j with ring := some r' } t ∧ r.goesOn r'

theorem State.ringGoesOn.refl (i : Nat) (s : State) : State.ringGoesOn i s s := by
  intro j r hj hr _
  refine ⟨r, ⟨?_, fun _ => rfl⟩, rfl⟩
  rw [← hr]
  exact hj

theorem State.ringGoesOn.trans {i : Nat} {s t u : State} (h : State.ringGoesOn i s t) (g : State.ringGoesOn i t u) :
    State.ringGoesOn i s u := by
  intro j r hj hr hheld
  obtain ⟨r1, h1, k1⟩ := h j r hj hr hheld
  obtain ⟨r2, h2, k2⟩ := g _ r1 h1.job rfl ((congrArg Ring.held k1).trans hheld)
  exact ⟨r2, h1.trans h2, k1.trans k2⟩

variable (s : State) (i : Nat)

theorem State.ringGoesOn_ringAdd (k n : Nat) : State.ringGoesOn i s (s.ringAdd i k n) :=
  fun _ r hj hr _ => ⟨r.add k n, State.onlyJob_mapRing hj hr (fun r => r.add k n), rfl⟩

theorem State.ringGoesOn_sendPacket (plane : Nat) (p : Packet) : State.ringGoesOn i s (s.sendPacket i plane p) := by
  intro j r hj hr _
  obtain ⟨q, hq⟩ := State.onlyJob_sendPacket hj hr plane p
  exact ⟨_, hq, rfl⟩

theorem State.ringGoesOn_addPacket (j : Job) (rings : Nat) (p : Packet) : State.ringGoesOn i s (s.addPacket i j rings p) :=
  (s.ringGoesOn_ringAdd i _ _).trans (State.ringGoesOn_sendPacket _ i _ _)

theorem State.ringGoesOn_originate : State.ringGoesOn i s (s.originate i) := by
  unfold State.originate
  split
  · exact .refl i s
  · split
    · exact .refl i s
    · split
      · refine foldl_related (.refl i) .trans (fun s t => ?_) _ s
        extract_lets k e
        split
        · exact .refl i s
        · split
          · exact s.ringGoesOn_addPacket i _ _ _
          · exact s.ringGoesOn_sendPacket i _ _
      · exact .refl i s

theorem State.ringGoesOn_retryHeld : State.ringGoesOn i s (s.retryHeld i) := by
  intro j r hj hr hheld
  refine ⟨r, ?_, rfl⟩
  have hretry : s.retryHeld i = s.setJob i { j with ring := some { r with held := [] } } := by
    unfold State.retryHeld
    rw [hj, Option.bind_some, hr]
    dsimp only
    rw [hheld, List.foldl_nil]
    exact State.mapRing_of_ring hj hr _
  rw [hretry, ← hheld]
  exact s.onlyJob_setJob _ _

theorem State.ringGoesOn_sendLap1 (j : Job) (r : Ring) (attempt : Nat) : State.ringGoesOn i s (s.sendLap1 i j r attempt) := by
  intro j' r' hj hr _
  obtain ⟨q, hq⟩ := State.onlyJob_sendLap1 hj hr j r attempt
  exact ⟨_, hq, rfl⟩

theorem State.ringGoesOn_tryLead : State.ringGoesOn i s (s.tryLead i) := by
  unfold State.tryLead
  split
  · exact .refl i s
  · split
    · exact .refl i s
    · split
      · exact s.ringGoesOn_sendLap1 i _ _ _
      · exact .refl i s

/-- What follows an event, where no frame is held, sends packets and a lap 1. -/
theorem State.ringGoesOn_settleRing : State.ringGoesOn i s (s.settleRing i) :=
  (((s.ringGoesOn_originate i).trans (State.ringGoesOn_retryHeld _ i)).trans (State.ringGoesOn_retryHeld _ i)).trans
    (State.ringGoesOn_tryLead _ i)

/-! #### A frame of the exchange in progress -/

section
variable {s : State} {i : Nat} {j : Job} {r : Ring} (hj : s.job i = some j) (hr : j.ring = some r)
include hj hr

theorem State.ringDeal_now {b : Bytes} (hnow : fXnum b = j.exchanges % 2 ^ 32)
    (hlater : fType b ≠ 0x11 ∧ fType b ≠ 0x12 ∧ fType b ≠ 0x13)
    (hlap : fType b = 0x14 → bit (fSamples b) 2 = true ∧ fBlock b ≠ r.slot) :
    s.ringDeal i b = if fType b = 0x10 then s.openExchange i false else if fType b = 0x14 then s.lap2In i j r b
      else if fType b = 0x18 then s.reduceIn i j r b else s.paramIn i j r b := by
  obtain ⟨h11, h12, h13⟩ := hlater
  have hnext : ¬ fXnum b = (j.exchanges + 1) % 2 ^ 32 := by omega
  unfold State.ringDeal
  rw [hj]
  dsimp only
  rw [hr]
  dsimp only
  rw [if_neg h11, if_neg h12, if_neg h13]
  by_cases h14 : fType b = 0x14
  · obtain ⟨hbit, hslot⟩ := hlap h14
    rw [if_neg (by simp [hslot]), if_neg hnext, if_neg (by simp [hbit]), if_neg (not_not_intro hnow)]
  · rw [if_neg (by simp [h14]), if_neg hnext, if_neg (by simp [h14]), if_neg (not_not_intro hnow)]

theorem State.ringDeal_reduce {b : Bytes} (hty : fType b = 0x18) (hnow : fXnum b = j.exchanges % 2 ^ 32) :
    s.ringDeal i b = s.reduceIn i j r b := by
  rw [State.ringDeal_now hj hr hnow (by simp [hty]) (by simp [hty])]
  simp [hty]

/-- The owner finishes a block of its ring without a contribution of its own. -/
theorem State.finishBlock_absent (p : Packet) : ∃ r' d, State.onlyJob i s { j with ring := some r' } (s.finishBlock i j p false) ∧
    Table.find r'.done p.block = some d ∧ d.samples = p.samples ∧ d.words.length = p.elem.length ∧ r'.held = r.held := by
  let f : Ring → Ring := fun r =>
    let g := p.elem.map fun c => word32 (packetWord p.e c)
    { r with done := Table.put r.done p.block ⟨g, p.samples⟩
             overflow := r.overflow || p.ovf || g.any fun v => !Fp.isFinite .f32 v.toNat, fromOvf := r.fromOvf || p.ovf }
  have h1 := State.onlyJob_mapRing hj hr f
  have h2 := State.onlyJob_mapRing h1.job rfl (fun r => r.add 3 p.under)
  have h3 := State.onlyJob_mapRing h2.job rfl (fun r => r.add 4 256)
  exact ⟨_, _, (h1.trans h2).trans h3, Table.find_put_self _ _ _, rfl, List.length_map _, rfl⟩

end

/-- A packet of an absent member: finished where it owns the block, and forwarded otherwise. -/
theorem State.reduceIn_absent (j : Job) {r : Ring} {b : Bytes} (hopened : r.opened = true)
    (hpresent : r.present = some false) (hdecided : r.decided = none)
    (hsent : s.ownerOf i r (fBlock b) = r.slot ∨ r.sent.contains (fBlock b) = false) (hdone : Table.find r.done (fBlock b) = none) :
    s.reduceIn i j r b = if s.ownerOf i r (fBlock b) = r.slot then s.finishBlock i j (Packet.ofFrame b) false
      else s.sendPacket i (fBlock b % r.rings) (Packet.ofFrame b) := by
  have hfirst : (!decide (s.ownerOf i r (fBlock b) = r.slot) && r.sent.contains (fBlock b)) = false := by
    rcases hsent with h | h
    · rw [decide_eq_true h]; rfl
    · rw [h, Bool.and_false]
  unfold State.reduceIn
  extract_lets p k mine
  have hlate : ¬ (!decide mine && r.sent.contains k || (Table.find r.done k).isSome || r.decided.isSome) = true := by
    show ¬ (!decide (s.ownerOf i r (fBlock b) = r.slot) && r.sent.contains (fBlock b) || (Table.find r.done (fBlock b)).isSome || _) = true
    rw [hfirst, hdone, hdecided]
    decide
  rw [if_neg hlate, hopened, hpresent]
  rfl

end Sys2Proof.Machine

/-! ### The timed events of an exchange (R334, R341, R343, R347, R350, R353) -/

namespace Sys2Proof.Machine

/-! #### The row of a member -/

theorem State.onMember_of_member {s : State} {i : Nat} {j : Job} {r : Ring} (hj : s.job i = some j) (hm : j.member = some r)
    (f : Job → Ring → Res) : s.onMember i f = f j r := by
  unfold State.onMember
  rw [hj]
  dsimp only
  rw [hm]

theorem State.onMember_of_none {s : State} {i : Nat} (hj : s.job i = none) (f : Job → Ring → Res) : s.onMember i f = .next s := by
  unfold State.onMember
  rw [hj]

/-! #### A packet that an owner misses (R347) -/

/-- The empty packet of a block: frame of a ring, exchange and block, with the exponent agreed for it. -/
def emptyReduce (ring xnum block e : Nat) : Bytes :=
  toBytes 8 0x18 ++ toBytes 8 ring ++ toBytes 4 xnum ++ toBytes 3 block ++ zeros 9 ++ toBytes 1 e ++ zeros 31 ++ zeros 256

section
variable (ring xnum block e : Nat)

theorem fType_emptyReduce : fType (emptyReduce ring xnum block e) = 0x18 := by
  have htype : toBytes 8 0x18 = toBytes 1 0x18 ++ zeros 7 := rfl
  simp only [fType, emptyReduce, htype, List.append_assoc]
  exact fieldAt_append_toBytes [] _ 1 0x18

theorem fXnum_emptyReduce : fXnum (emptyReduce ring xnum block e) = xnum % 2 ^ 32 := by
  have h := fieldAt_append_toBytes (toBytes 8 0x18 ++ toBytes 8 ring) (toBytes 3 block ++ zeros 9 ++ toBytes 1 e ++ zeros 31 ++ zeros 256) 4 xnum
  simpa only [fXnum, emptyReduce, List.append_assoc, List.length_append, length_toBytes] using h

theorem fBlock_emptyReduce : fBlock (emptyReduce ring xnum block e) = block % 2 ^ 24 := by
  have h := fieldAt_append_toBytes (toBytes 8 0x18 ++ toBytes 8 ring ++ toBytes 4 xnum) (zeros 9 ++ toBytes 1 e ++ zeros 31 ++ zeros 256) 3 block
  simpa only [fBlock, emptyReduce, List.append_assoc, List.length_append, length_toBytes] using h

theorem fSamples_emptyReduce : fSamples (emptyReduce ring xnum block e) = 0 := by
  have hzeros : zeros 9 = zeros 1 ++ (toBytes 4 0 ++ zeros 4) := rfl
  have h := (fieldAt_append_toBytes (toBytes 8 0x18 ++ toBytes 8 ring ++ toBytes 4 xnum ++ toBytes 3 block ++ zeros 1)
    (zeros 4 ++ toBytes 1 e ++ zeros 31 ++ zeros 256) 4 0).trans (Nat.zero_mod _)
  rw [fSamples, emptyReduce, hzeros]
  simpa only [List.append_assoc, List.length_append, length_toBytes, zeros, List.length_replicate] using h

end

theorem length_slice (b : Bytes) (off len : Nat) : (slice b off len).length = len := by
  simp only [slice, List.length_append, List.length_take, List.length_drop, List.length_replicate]
  omega

theorem leNat_lt (b : Bytes) : leNat b < 2 ^ (8 * b.length) := by
  induction b with
  | nil => simp [leNat]
  | cons x b ih =>
    have hx := x.isLt
    have hpow : 2 ^ (8 * (b.length + 1)) = 256 * 2 ^ (8 * b.length) := by rw [Nat.mul_add, Nat.pow_add, Nat.mul_comm]
    rw [leNat, List.length_cons, hpow]
    omega

theorem fieldAt_lt (b : Bytes) (off w : Nat) : fieldAt b off w < 2 ^ (8 * w) := by
  have h := leNat_lt (slice b off w)
  rwa [length_slice] at h

/-- The blocks of a costume are numbered in 24 bits. -/
theorem State.jobBlocks_le (s : State) (i : Nat) : s.jobBlocks i ≤ 2 ^ 24 := by
  have h : s.jobP i < 2 ^ 32 := fieldAt_lt _ _ 4
  rw [State.jobBlocks, blocksOf, ceilDiv]
  omega

/-- An absent owner finishes a block without a packet as an empty one leaves it. -/
theorem State.ringDeal_emptyReduce {s : State} {i block e : Nat} {j : Job} {r : Ring} (hj : s.job i = some j) (hr : j.ring = some r)
    (hopened : r.opened = true) (hpresent : r.present = some false) (hdecided : r.decided = none)
    (howner : s.ownerOf i r block = r.slot) (hblock : block < s.jobBlocks i) (hdone : Table.find r.done block = none) :
    ∃ r' d, State.onlyJob i s { j with ring := some r' } (s.ringDeal i (emptyReduce r.id j.exchanges block e)) ∧
      Table.find r'.done block = some d ∧ d.samples = 0 ∧ d.words.length = 256 ∧ r'.held = r.held := by
  have hk : fBlock (emptyReduce r.id j.exchanges block e) = block := by
    rw [fBlock_emptyReduce]
    exact Nat.mod_eq_of_lt (Nat.lt_of_lt_of_le hblock (s.jobBlocks_le i))
  obtain ⟨r', d, hjob, hfind, hsamples, hwords, hheld⟩ := State.finishBlock_absent hj hr
    (Packet.ofFrame (emptyReduce r.id j.exchanges block e))
  refine ⟨r', d, ?_, ?_, ?_, ?_, hheld⟩
  · rw [State.ringDeal_reduce hj hr (fType_emptyReduce _ _ _ _) (fXnum_emptyReduce _ _ _ _),
      s.reduceIn_absent i j hopened hpresent hdecided (by rw [hk]; exact .inl howner) (by rw [hk]; exact hdone),
      if_pos (by rw [hk]; exact howner)]
    exact hjob
  · rw [← hk]; exact hfind
  · rw [hsamples]; exact fSamples_emptyReduce _ _ _ _
  · rw [hwords]
    exact (List.length_map _).trans (length_slice _ _ _)

/-! #### What follows an event of a member that holds nothing -/

/-- An event that changes the ring of a job, and what follows it. -/
theorem State.onlyJob_settleRing {s t : State} {i : Nat} {j : Job} {r : Ring} (ht : State.onlyJob i s { j with ring := some r } t)
    (hheld : r.held = []) : ∃ r', State.onlyJob i s { j with ring := some r' } (t.settleRing i) ∧ r.goesOn r' := by
  obtain ⟨r', hjob, hgoes⟩ := t.ringGoesOn_settleRing i _ r ht.job rfl hheld
  exact ⟨r', ht.trans hjob, hgoes⟩

theorem State.hasLanded_mem {s : State} {i k : Nat} {j : Job} (h : s.hasLanded i k j = true) {v : Bool × Nat × Nat}
    (hv : v ∈ s.blockVectors i k) {n : Nat} (hn : n < ceilDiv v.2.2 128) {g : Nat} (hg : g ∈ j.due) :
    (v.1, v.2.1, n, g) ∈ j.landed := by
  have htile := List.all_eq_true.mp (List.all_eq_true.mp h v hv) n (List.mem_range.mpr hn)
  exact List.contains_iff_mem.mp (List.all_eq_true.mp htile g hg)

theorem State.ringAdd_frozen (r : Ring) : (r.add 5 1).stat.frozen = min (r.stat.frozen + 1) 0xFFFFFFFF := satAdd_fst 32 _ _

theorem exec_joinTimeout_of_joiner {s : State} {i : Nat} {j : Job} {r : Ring} {c : CmdRef} (hj : s.job i = some j)
    (hr : j.ring = some r) (hc : r.joining = some c) :
    exec (.joinTimeout i) s = .next ((s.setJob i { j with ring := none }).finish c (if r.early = [] then 0x0402 else 0x0104)) := by
  have hstatus : (if r.early.isEmpty then 0x0402 else 0x0104) = if r.early = [] then 0x0402 else 0x0104 := by
    cases r.early <;> rfl
  show execJoinTimeout i s = _
  rw [execJoinTimeout, hj, Option.bind_some, hr]
  dsimp only
  rw [hc]
  dsimp only
  rw [State.mapJob_of_job hj, hstatus]

theorem exec_joinTimeout_of_no_joiner {s : State} {i : Nat} (h : ∀ r, (s.job i).bind (·.ring) = some r → r.joining = none) :
    exec (.joinTimeout i) s = .next s := by
  show execJoinTimeout i s = _
  unfold execJoinTimeout
  split
  · next r hr =>
    rw [h r hr]
  · rfl

/-- Settles O53. Each event is the guard of its row with the change that it makes to the job's ring; where the member holds no
frame, what follows the event keeps what the statement asks of the ring. -/
theorem ringEvents : Obligations.RingEvents := by
  unfold Obligations.RingEvents
  intro i block s
  refine ⟨fun j r hj hm => ?_, fun j r hj hr => ⟨fun c hc => ?_, fun hc => ?_⟩, fun hj x hx => ?_⟩
  · obtain ⟨hr, -⟩ := Job.member_eq_some.mp hm
    have row (f : Job → Ring → Res) : s.onMember i f = f j r := State.onMember_of_member hj hm f
    refine ⟨fun hheld hopened hpresent hfinal hblock hlanded hfold => ?_, fun h => ?_, fun v n g hlanded hv hn hg => ?_,
      fun hheld hopened hlate => ?_, fun h => ?_, fun hheld hopened hpresent hdecided howner hblock hdone => ?_, fun h => ?_,
      fun hdecided hready hattempt => ?_, fun h => ?_, fun hheld hupdating hdecided hunwritten howner hfree => ?_, fun h => ?_⟩
    · have hchange := State.onlyJob_mapRing hj hr fun r => { r with final := block :: r.final }
      obtain ⟨r', hjob, hgoes⟩ := State.onlyJob_settleRing hchange hheld
      refine ⟨_, _, r', (row _).trans (guarded_true _ _ ?_), hjob.job, rfl, (congrArg Ring.final hgoes :), (congrArg Ring.present hgoes :),
        (congrArg Ring.done hgoes :), hjob.bytes⟩
      have hfolded : (if s.foldsFirst i block then r.folded
          else r.folded || (j.running && decide (j.passes.length = 1)) || decide (j.window = .closing)) = true := by
        rcases hfold with h | ⟨h, hw | ⟨hrun, hone⟩⟩
        · simp [h]
        · simp [h, hw]
        · simp [h, hrun, hone]
      rw [hopened, hpresent, hfinal, hlanded, decide_eq_true hblock, hfolded]
      rfl
    · refine (row _).trans (guarded_false _ _ ?_)
      rcases h with h | h | h
      · rw [h]; rfl
      · rw [h]; simp
      · rw [h]; simp
    · exact State.hasLanded_mem hlanded hv hn hg
    · have hchange := State.onlyJob_mapRing hj hr fun r => { r with late := true, present := some (r.present.getD false) }
      obtain ⟨r', hjob, hgoes⟩ := State.onlyJob_settleRing hchange hheld
      refine ⟨_, _, r', (row _).trans (guarded_true _ _ ?_), hjob.job, rfl, (congrArg Ring.late hgoes :), (congrArg Ring.present hgoes :)⟩
      rw [hopened, hlate]; rfl
    · refine (row _).trans (guarded_false _ _ ?_)
      rcases h with h | h
      · rw [h]; rfl
      · rw [h, Bool.not_true, Bool.and_false]
    · obtain ⟨r1, d, hdeal, hfind, hsamples, hwords, hheld1⟩ := State.ringDeal_emptyReduce (e := Table.get 0 r.agreed block) hj hr
        hopened hpresent hdecided howner hblock hdone
      obtain ⟨r', hjob, hgoes⟩ := State.onlyJob_settleRing hdeal (hheld1.trans hheld)
      refine ⟨_, _, r', d, (row _).trans (guarded_true _ _ ?_), hjob.job, rfl, ?_, hsamples, hwords, hjob.bytes⟩
      · rw [hopened, decide_eq_true howner, decide_eq_true hblock, hdone, hheld]; rfl
      · rw [(congrArg Ring.done hgoes :)]; exact hfind
    · refine (row _).trans (guarded_false _ _ ?_)
      rcases h with h | h
      · rw [Option.isNone_eq_false_iff.mpr (Option.isSome_iff_ne_none.mpr h)]; simp
      · rw [decide_eq_false h]; simp
    · obtain ⟨q, hjob⟩ := State.onlyJob_sendLap1 hj hr j r (r.attempt + 1)
      refine ⟨_, _, _, (row _).trans (guarded_true _ _ ?_), hjob.job, rfl, rfl, rfl, rfl, hjob.bytes⟩
      rw [hdecided, hready, decide_eq_true hattempt]; rfl
    · refine (row _).trans (guarded_false _ _ ?_)
      rw [Option.isNone_eq_false_iff.mpr (Option.isSome_iff_ne_none.mpr h)]; rfl
    · have hkept := (s.keepsRings_writeBlock i j block (s.keptBlock i j block)).job i
      have hmap := State.mapJob_of_job (hkept.trans hj) fun j => { j with unwritten := j.unwritten.filter (· ≠ block) }
      have hchange := State.onlyJob_mapRing
        ((congrArg (State.job · i) hmap).trans (State.setJob_self _ _ _)) hr fun r => r.add 5 1
      refine ⟨_, _, _, (row _).trans (guarded_true _ _ ?_), hchange.job, rfl, rfl, State.ringAdd_frozen r⟩
      rw [hupdating, Option.isSome_iff_ne_none.mpr hdecided, hunwritten, decide_eq_true howner, hfree, hheld]; rfl
    · refine (row _).trans (guarded_false _ _ ?_)
      rw [h]; simp
  · exact ⟨_, exec_joinTimeout_of_joiner hj hr hc, State.setJob_self _ _ _, fun _ => rfl⟩
  · refine exec_joinTimeout_of_no_joiner fun r' hr' => ?_
    rw [hj, Option.bind_some, hr] at hr'
    exact Option.some.inj hr' ▸ hc
  · simp only [List.mem_cons, List.not_mem_nil, or_false] at hx
    rcases hx with rfl | rfl | rfl | rfl | rfl | rfl
    · exact State.onMember_of_none hj _
    · exact State.onMember_of_none hj _
    · exact State.onMember_of_none hj _
    · exact State.onMember_of_none hj _
    · exact State.onMember_of_none hj _
    · exact exec_joinTimeout_of_no_joiner fun r hr => by rw [hj] at hr; cases hr

end Sys2Proof.Machine

/-! ### Ring frames on a member (R324, R330, R334-R336, R340, R345, R347, R349, R353) -/

namespace Sys2Proof

/-- The last value put at a key stands alone. -/
theorem Table.put_put {α : Type} (t : Tab α) (k : Nat) (v w : α) : Table.put (Table.put t k v) k w = Table.put t k w := by
  have h : Table.erase (Table.put t k v) k = Table.erase t k := by
    rw [Table.put, Table.erase_insert, Table.erase_erase]
  simp only [Table.put] at h ⊢
  rw [h]

namespace Machine

/-! #### A frame comes in on a plane (R324, R325, R330) -/

/-- At port B a frame goes back on its plane, which port A carries on. -/
theorem State.ringIn_back {s : State} {port : Nat} (b : Bytes) (hodd : port % 2 = 1) (hup : (s.port (port - 1)).up = true)
    (hwrap : (s.port (port - 1)).wrap = false) : s.ringIn port b = s.sendFrames (port - 1) [b] := by
  have hA : 2 * (port / 2) = port - 1 := by omega
  unfold State.ringIn
  extract_lets ld a
  have ha : a = s.port (port - 1) := congrArg s.port hA
  rw [if_pos (by rw [ha, hup, hwrap, decide_eq_true hodd]; rfl)]
  exact congrArg (s.sendFrames · [b]) hA

theorem State.ringIn_forward (s : State) {port : Nat} (b : Bytes) (heven : port % 2 = 0) :
    s.ringIn port b = s.forwardIn (port / 2) b := by
  unfold State.ringIn
  exact if_neg (by simp [heven])

section
variable {s : State} {i : Nat} {j : Job} {r : Ring} {b : Bytes} (hjobs : s.jobs = [(i, j)]) (hring : j.ring = some r)
  (hjoin : r.joining = none) (hid : r.id = fRing b)
include hjobs hring hjoin hid

theorem State.forwardIn_of_decrypt (ld : Nat) {p : Bytes} (hp : r.decrypt b = some p) : s.forwardIn ld b =
    ((if fType b = 0x11 then s else s.noteSender i r (fSender b)).ringDeal i (b.take 0x40 ++ p)).settleRing i := by
  unfold State.forwardIn
  rw [hjobs, List.find?_cons_of_pos (by simp [hring, hjoin, hid])]
  simp only [hring, hp]

theorem State.forwardIn_of_tagFail (ld : Nat) (hp : r.decrypt b = none) :
    s.forwardIn ld b = s.setJob i { j with ring := some (r.add 6 1) } := by
  unfold State.forwardIn
  rw [hjobs, List.find?_cons_of_pos (by simp [hring, hjoin, hid])]
  simp only [hring, hp, hjoin, Option.isSome_none, Bool.false_and, Bool.false_eq_true, if_false]
  exact State.mapRing_of_ring (State.job_of_jobs hjobs) hring _

end

/-! #### Frames that form a ring (R334, R336) -/

/-- The predecessor's predecessor has the member's slot under another JOIN_SALT. -/
def Ring.occupied (r : Ring) : Bool := r.pred2.any fun p => p.1 = r.slot && p.2 ≠ r.salt

/-- The predecessor's predecessor that the body of a FORM names. -/
def formPred2 (b : Bytes) : Option (Nat × Bytes) :=
  if allZero (slice (fBody b) 64 32) then none else some (fieldAt (fBody b) 96 2, slice (fBody b) 64 32)

/-- The ring of a member that has received a FORM of its predecessor. -/
def Ring.learns (r : Ring) (b : Bytes) : Ring :=
  { r with pred := some (fSender b, slice (fBody b) 32 32), pred2 := formPred2 b, formsIn := r.formsIn + 1 }

theorem Ring.occupied_learns (r : Ring) (b : Bytes) : (r.learns b).occupied = true ↔
    fieldAt (fBody b) 96 2 = r.slot ∧ allZero (slice (fBody b) 64 32) = false ∧ (slice (fBody b) 64 32 == r.salt) = false := by
  unfold Ring.occupied Ring.learns formPred2
  cases h : allZero (slice (fBody b) 64 32) with
  | true => simp
  | false => simp

section
variable {s : State} {i : Nat} {j : Job} (hj : s.job i = some j)
include hj

/-- A job in no ring is as before. -/
theorem State.mapRing_of_no_ring (hr : j.ring = none) (f : Ring → Ring) : s.mapRing i f = s.setJob i j := by
  rw [State.mapRing, hj]
  show s.setJob i { j with ring := j.ring.map f } = _
  rw [hr, Option.map_none, ← hr]

theorem State.sendForm_of_no_ring (hr : j.ring = none) : s.sendForm i = s := by
  unfold State.sendForm
  rw [hj]
  dsimp only
  rw [hr]

variable {r : Ring} (hr : j.ring = some r)
include hr

theorem State.ringDeal_form {b : Bytes} (hty : fType b = 0x11) : s.ringDeal i b = s.formIn i j r b := by
  unfold State.ringDeal
  rw [hj]
  dsimp only
  rw [hr]
  exact if_pos hty

theorem State.ringDeal_refuse {b : Bytes} (hty : fType b = 0x12) : s.ringDeal i b = s.refuseIn i r := by
  unfold State.ringDeal
  rw [hj]
  dsimp only
  rw [hr]
  dsimp only
  rw [if_neg (by simp [hty]), if_pos hty]

theorem State.ringDeal_leave {b : Bytes} (hty : fType b = 0x13) :
    s.ringDeal i b = s.setJob i { j with ring := some { r with pred := r.pred2, pred2 := none, formDue := true } } := by
  unfold State.ringDeal
  rw [hj]
  dsimp only
  rw [hr]
  dsimp only
  rw [if_neg (by simp [hty]), if_neg (by simp [hty]), if_pos hty]
  exact State.mapRing_of_ring hj hr _

/-- A FORM of the member goes out: it keeps whether it joins, and its predecessor. -/
theorem State.job_sendForm : ∃ r', (s.sendForm i).job i = some { j with ring := some r' } ∧ r'.joining = r.joining ∧ r'.pred = r.pred := by
  unfold State.sendForm
  rw [hj]
  dsimp only
  rw [hr]
  dsimp only
  obtain ⟨q, hq⟩ := State.onlyJob_mapRing_ringSend hj hr (fun r => { r with formDue := false, formed := true }) 0 { ty := 0x11 }
    (toBytes 8 j.seed ++ toBytes 8 j.exchanges ++ toBytes 4 (s.entry i).gen ++ zeros 12 ++ padTo r.salt 32 ++
      padTo (r.pred.getD (0, zeros 32)).2 32 ++ toBytes 2 (r.pred.getD (0, zeros 32)).1)
  exact ⟨_, hq.job, rfl, rfl⟩

variable {c : CmdRef} (hc : r.joining = some c)
include hc

omit hr in
/-- A joiner is refused: its join ends, and it is in no ring. -/
theorem State.refuseIn_of_joiner : s.refuseIn i r = (s.setJob i { j with ring := none }).finish c 0x0104 := by
  unfold State.refuseIn
  rw [hc]
  dsimp only
  rw [State.mapJob_of_job hj]

/-- A joiner has joined: its command completes, and its shards are divided anew. -/
theorem State.job_joined : ∃ shards, (s.joined i).job i = some { j with ring := some { r with joining := none }, shards := shards } := by
  have hmap := State.onlyJob_mapRing hj hr fun r => { r with joining := none }
  have hfinish := ((s.mapRing i fun r => { r with joining := none }).keepsRings_finish c 0 0 0).job i
  unfold State.joined
  rw [hj, Option.bind_some, hr]
  dsimp only
  rw [hc]
  dsimp only
  unfold State.reshard
  rw [hfinish, hmap.job]
  exact ⟨_, State.setJob_self _ _ _⟩

/-- A joiner that knows no REFUSE is refused where its predecessor's predecessor has its slot under another JOIN_SALT. -/
theorem State.welcomed_of_joiner (hearly : r.early = []) :
    s.welcomed i = if r.occupied then s.refuseIn i r else s.joined i := by
  unfold State.welcomed
  rw [hj, Option.bind_some, hr]
  dsimp only
  rw [← Ring.occupied, hc, hearly, List.any_nil, Bool.or_false, Option.isSome_some, Bool.true_and]

theorem State.welcomed_of_occupied (hocc : r.occupied = true) :
    s.welcomed i = s.refuseIn i r := by
  unfold State.welcomed
  rw [hj, Option.bind_some, hr]
  dsimp only
  rw [← Ring.occupied, hc, hocc, Option.isSome_some, Bool.true_or, Bool.and_true, if_pos rfl]

end

section
variable {s : State} {i : Nat} {j : Job} {r : Ring} {c : CmdRef} (hc : r.joining = some c) {b : Bytes} (hslot : fSender b ≠ r.slot)
include hc hslot

/-- A joiner learns its predecessor, is welcomed or refused, and sends its own FORM where it is due. -/
theorem State.formIn_of_joiner : ∃ (send : Bool) (due : Bool), s.formIn i j r b =
    (if send then ((s.mapRing i fun x => x.learns b).welcomed i).sendForm i else (s.mapRing i fun x => x.learns b).welcomed i).mapRing i
      fun x => { x with formDue := due } := by
  unfold State.formIn
  extract_lets slot body salt back pred2 changed again s1 same s2 s3 s4
  have h2 : s2 = s1 := if_pos (by rw [hc]; simp)
  rw [if_neg (by simp [slot, hslot]), if_neg hslot]
  refine ⟨!r.formed || again, r.formDue || changed || decide (0 < r.formsIn), ?_⟩
  dsimp only [s4, s3]
  rw [h2]
  rfl

variable (hj : s.job i = some j) (hr : j.ring = some r)
include hj hr

/-- A joiner whose slot is free has joined behind the sender of the FORM. -/
theorem State.formIn_joins (hearly : r.early = []) (hfree : ¬ (r.learns b).occupied = true) :
    ∃ j' r', (s.formIn i j r b).job i = some j' ∧ j'.ring = some r' ∧ r'.joining = none ∧
      r'.pred = some (fSender b, slice (fBody b) 32 32) := by
  obtain ⟨send, due, hform⟩ := State.formIn_of_joiner (s := s) (i := i) (j := j) hc hslot
  have hlearnt := State.onlyJob_mapRing hj hr fun x => x.learns b
  have hwelcomed := State.welcomed_of_joiner (c := c) hlearnt.job rfl hc hearly
  rw [if_neg hfree] at hwelcomed
  obtain ⟨shards, hjoined⟩ := State.job_joined (c := c) hlearnt.job rfl hc
  rw [← hwelcomed] at hjoined
  have hsent : ∃ j' r', (if send then ((s.mapRing i fun x => x.learns b).welcomed i).sendForm i
        else (s.mapRing i fun x => x.learns b).welcomed i).job i = some j' ∧ j'.ring = some r' ∧ r'.joining = none ∧
      r'.pred = some (fSender b, slice (fBody b) 32 32) := by
    cases send with
    | false => exact ⟨_, _, hjoined, rfl, rfl, rfl⟩
    | true =>
      obtain ⟨r', hjob, hjoining, hpred⟩ := State.job_sendForm hjoined rfl
      exact ⟨_, r', hjob, rfl, hjoining, hpred⟩
  obtain ⟨j', r', hjob, hring, hjoining, hpred⟩ := hsent
  rw [hform]
  exact ⟨_, _, (State.onlyJob_mapRing hjob hring _).job, rfl, hjoining, hpred⟩

/-- A joiner whose slot is taken is refused, and the rest of the reception finds no ring. -/
theorem State.formIn_refused (htaken : (r.learns b).occupied = true) :
    ∃ y : State, s.formIn i j r b = y.finish c 0x0104 ∧ y.job i = some { j with ring := none } := by
  obtain ⟨send, due, hform⟩ := State.formIn_of_joiner (s := s) (i := i) (j := j) hc hslot
  have hlearnt := State.onlyJob_mapRing hj hr fun x => x.learns b
  let u := s.mapRing i fun x => x.learns b
  let y := u.setJob i { j with ring := none }
  have hwelcomed : u.welcomed i = y.finish c 0x0104 :=
    (State.welcomed_of_occupied (c := c) hlearnt.job rfl hc htaken).trans (State.refuseIn_of_joiner (r := r.learns b) hlearnt.job hc)
  have hfinish := y.keepsRings_finish c 0x0104 0 0
  have hleft : (y.finish c 0x0104).job i = some { j with ring := none } := (hfinish.job i).trans (State.setJob_self _ _ _)
  have hquiet : (if send then (u.welcomed i).sendForm i else u.welcomed i) = y.finish c 0x0104 := by
    rw [hwelcomed, State.sendForm_of_no_ring hleft rfl, ite_self]
  refine ⟨y, ?_, State.setJob_self _ _ _⟩
  rw [hform, hquiet, State.mapRing_of_no_ring hleft rfl]
  have hsame : Table.put (y.finish c 0x0104).jobs i { j with ring := none } = (y.finish c 0x0104).jobs := by
    rw [hfinish.jobs]
    exact Table.put_put _ _ _ _
  rw [State.setJob, hsame]

end

/-! #### A decision comes round (R312, R349) -/

section
variable {s : State} {i : Nat} {j : Job} (hj : s.job i = some j) (hclosing : j.closing = none)
include hj hclosing

/-- A decision changes σ and CLEAN of a job that is not to close, and an applied one makes it update. -/
theorem State.job_decided (apply : Bool) (sigma clean status : Nat) : ∃ j', (s.decided i apply sigma clean status).job i = some j' ∧
    j'.sigma = sigma ∧ j'.clean = clean ∧ (apply = true → j'.updating = true) := by
  unfold State.decided
  rw [hj]
  dsimp only
  cases apply with
  | true => exact ⟨_, State.setJob_self _ _ _, rfl, rfl, fun _ => rfl⟩
  | false =>
    have hset := s.setJob_self i { j with sigma := sigma, clean := clean, verdict := status }
    obtain ⟨t, hsteady, hb⟩ := State.boundary_cases (s.setJob i { j with sigma := sigma, clean := clean, verdict := status }) i true
    obtain ⟨j', hj', hscale⟩ := hsteady.job i _ hset
    have hgoes := hscale.closing.trans hclosing
    rcases hb with hb | ⟨j'', c, cmd, hj'', hc, -⟩
    · refine ⟨j', ?_, hscale.sigma, hscale.clean, fun h => absurd h (by decide)⟩
      rw [← hj', ← hb]
      rfl
    · obtain rfl := Option.some.inj (hj'.symm.trans hj'')
      rw [hgoes] at hc
      cases hc

/-- Lap 2 carries the decision. -/
theorem State.job_lap2In {r : Ring} {b : Bytes} (hr : j.ring = some r) (hslot : fBlock b ≠ r.slot) (hdecided : r.decided = none) :
    ∃ j', (s.lap2In i j r b).job i = some j' ∧ j'.sigma = fieldAt (fBody b) 0 4 ∧ j'.clean = fieldAt (fBody b) 4 2 ∧
      (bit (fSamples b) 1 = true → j'.updating = true) := by
  obtain ⟨q, hq⟩ := State.onlyJob_ringSend hj hr 0
    { ty := 0x14, block := fBlock b, attempt := fAttempt b, samples := fSamples b } ((fBody b).take 8)
  unfold State.lap2In
  rw [if_neg (by simp [hslot, hdecided])]
  exact State.job_decided (State.onlyJob_mapRing hq.job rfl _).job hclosing _ _ _ _

end

/-! #### A block is published (R353) -/

theorem State.readBytes_congr {s t : State} (a n : Nat) (h : ∀ k, a ≤ k → k < a + n → t.readByte k = s.readByte k) :
    t.readBytes a n = s.readBytes a n := by
  induction n generalizing a with
  | zero => rfl
  | succ n ih =>
    rw [State.readBytes, State.readBytes, h a (Nat.le_refl a) (by omega), ih (a + 1) fun k _ _ => h k (by omega) (by omega)]

section
variable {s : State} {i k : Nat} {j : Job} {x : Resident} (hfollow : j.follow = []) (hx : s.resident j.stage i = some x)
  (hst : x.st = .resident) (halt : x.alt ≠ 0)
include hfollow hx hst halt

/-- A costume that no other stage follows has its other buffer in its tuning stage alone. -/
theorem State.tuneStages_alone : s.tuneStages i j = [j.stage] := by
  unfold State.tuneStages
  rw [hfollow]
  simp [hx, hst, halt]

theorem State.writeBlock_vec {off len : Nat} (body : Bytes) (hplace : placeOf (s.imageHead x.alt) k = .vec off len) :
    s.writeBlock i j k body = s.writeBytes (x.alt + off) (body.take len) := by
  unfold State.writeBlock
  rw [State.tuneStages_alone hfollow hx hst halt, List.foldl_cons, List.foldl_nil, hx]
  dsimp only
  rw [hplace]

theorem State.writeHalf_vec {off len : Nat} (half : Bool) (body : Bytes) (hplace : placeOf (s.imageHead x.alt) k = .vec off len) :
    s.writeHalf i j k half body = s.writeBytes (x.alt + off + 256 * b2n half) (body.take 256) := by
  unfold State.writeHalf
  rw [State.tuneStages_alone hfollow hx hst halt, List.foldl_cons, List.foldl_nil, hx]
  dsimp only
  rw [hplace]

/-- A head brick: its elements and its tagged header, with the sums behind them. -/
theorem State.readBytes_writeBlock_head {el hd su : Nat} (body : Bytes) (hplace : placeOf (s.imageHead x.alt) k = .head el hd su)
    (hel : el + 128 ≤ hd) (hhd : hd + 4 ≤ su) :
    (s.writeBlock i j k body).readBytes (x.alt + el) (body.take 128).length = body.take 128 ∧
      (s.writeBlock i j k body).readLE (x.alt + hd) 4 = reTag (fieldAt body 128 4) (brickTag (x.alt + el)) % 2 ^ 32 := by
  unfold State.writeBlock
  rw [State.tuneStages_alone hfollow hx hst halt, List.foldl_cons, List.foldl_nil, hx]
  dsimp only
  rw [hplace]
  dsimp only
  have hlen : (body.take 128).length ≤ 128 := List.length_take_le _ _
  constructor
  · refine (State.readBytes_congr _ _ fun a h1 h2 => ?_).trans (State.readBytes_writeBytes _ s _)
    rw [State.readByte_writeBytes_outside _ _ _ (.inl (by omega)), State.readByte_writeLE_outside _ _ (.inl (by omega))]
  · refine (State.readLE_congr _ _ fun a h1 h2 => ?_).trans
      (State.readLE_writeLE (s.writeBytes (x.alt + el) (body.take 128)) _ 4 _)
    exact State.readByte_writeBytes_outside _ _ _ (.inl (by omega))

end

/-- What a PARAM frame writes of a block. -/
def State.paramBody (s : State) (i : Nat) (j : Job) (b : Bytes) : Bytes :=
  if fUnchanged b then s.keptBlock i j (fBlock b) else (fBody b).take (if s.isHead i (fBlock b) then 132 else 256)

/-- The other buffer once a PARAM frame has been written into it. -/
def State.paramWritten (s : State) (i : Nat) (j : Job) (b : Bytes) : State :=
  if fUnchanged b then s.writeBlock i j (fBlock b) (s.keptBlock i j (fBlock b))
  else if s.twoHalves i j (fBlock b) then s.writeHalf i j (fBlock b) (fHalf b) (fBody b)
  else s.writeBlock i j (fBlock b) ((fBody b).take (if s.isHead i (fBlock b) then 132 else 256))

theorem State.keepsRings_paramWritten (s : State) (i : Nat) (j : Job) (b : Bytes) : s.keepsRings (s.paramWritten i j b) := by
  unfold State.paramWritten
  split
  · exact s.keepsRings_writeBlock _ _ _ _
  · split
    · exact s.keepsRings_writeHalf _ _ _ _ _
    · exact s.keepsRings_writeBlock _ _ _ _

theorem State.paramWritten_whole {s : State} {i : Nat} {j : Job} {b : Bytes}
    (h : s.twoHalves i j (fBlock b) = false ∨ fUnchanged b = true) :
    s.paramWritten i j b = s.writeBlock i j (fBlock b) (s.paramBody i j b) := by
  unfold State.paramWritten State.paramBody
  cases hu : fUnchanged b with
  | true => rfl
  | false =>
    have htwo : s.twoHalves i j (fBlock b) = false := h.resolve_right (by simp [hu])
    rw [htwo]
    rfl

theorem State.paramWritten_half {s : State} {i : Nat} {j : Job} {b : Bytes} (htwo : s.twoHalves i j (fBlock b) = true)
    (hu : fUnchanged b = false) : s.paramWritten i j b = s.writeHalf i j (fBlock b) (fHalf b) (fBody b) := by
  unfold State.paramWritten
  rw [hu, htwo]
  rfl

/-- A PARAM that is due is written and goes on; a block is whole with its second half. -/
theorem State.paramIn_due {s : State} {i : Nat} {j : Job} {r : Ring} {b : Bytes} (hj : s.job i = some j) (hr : j.ring = some r)
    (howner : s.ownerOf i r (fBlock b) ≠ r.slot) (hdecided : r.decided ≠ none) (hfree : s.altFree i j = true)
    (hunwritten : j.unwritten.contains (fBlock b) = true) (hfirst : r.forwarded.contains (fBlock b, fHalf b) = false) :
    ∃ j' r', (s.paramIn i j r b).job i = some j' ∧ j'.ring = some r' ∧ r'.forwarded = (fBlock b, fHalf b) :: r.forwarded ∧
      (j'.unwritten = if s.twoHalves i j (fBlock b) = false ∨ r.forwarded.contains (fBlock b, !fHalf b) = true
        then j.unwritten.filter (· ≠ fBlock b) else j.unwritten) ∧
      ∀ a, (s.paramIn i j r b).readByte a = (s.paramWritten i j b).readByte a := by
  unfold State.paramIn
  extract_lets k half two s1 whole s2 s3
  have hwait : ¬ (r.decided.isNone || !s.altFree i j) = true := by
    rw [Option.isNone_eq_false_iff.mpr (Option.isSome_iff_ne_none.mpr hdecided), hfree]
    decide
  rw [if_neg howner, if_neg (ne_true_of_eq_false hfirst), if_neg hwait, if_neg (by rw [hunwritten]; decide)]
  have h1 : s1.job i = some j := ((s.keepsRings_paramWritten i j b).job i).trans hj
  have hs1 : s1 = s.paramWritten i j b := rfl
  clear_value s1
  obtain ⟨l, hl, hunw⟩ : ∃ l, (if whole then { j with unwritten := j.unwritten.filter (· ≠ k) } else j) = { j with unwritten := l } ∧
      l = if two = false ∨ r.forwarded.contains (k, !half) = true then j.unwritten.filter (· ≠ k) else j.unwritten := by
    have hwhole : whole = true ↔ two = false ∨ r.forwarded.contains (k, !half) = true := by
      simp only [whole, Bool.or_eq_true, Bool.not_eq_true']
    by_cases h : whole = true
    · exact ⟨_, if_pos h, (if_pos (hwhole.mp h)).symm⟩
    · exact ⟨j.unwritten, if_neg h, (if_neg (mt hwhole.mpr h)).symm⟩
  have h2 : s2 = s1.setJob i { j with unwritten := l } := (State.mapJob_of_job h1 _).trans (congrArg (s1.setJob i) hl)
  have hset : State.onlyJob i s1 { j with unwritten := l } s2 := h2 ▸ s1.onlyJob_setJob i _
  obtain ⟨q, hq⟩ := State.onlyJob_mapRing_ringSend hset.job hr
    (fun r => { r with forwarded := (k, half) :: r.forwarded, agreed := Table.set 0 r.agreed k (fE b) }) (k % r.rings)
    { ty := 0x19, block := k, low := b2n (fUnchanged b) * 2 ^ 17 + b2n half * 2 ^ 18, e := fE b } (fBody b)
  refine ⟨_, _, hq.job, rfl, rfl, hunw, fun a => ?_⟩
  rw [← hs1]
  exact (hq.bytes a).trans (hset.bytes a)

end Machine

end Sys2Proof

/-! ### What each type of ring frame does to a member -/

namespace Sys2Proof.Machine

/-- A frame of a member's ring that the member cannot verify counts in its ring, and no byte changes. -/
theorem State.received_tagFail {s : State} {p i : Nat} {b : Bytes} {j : Job} {r : Ring} (h : (s.port p).inOrder b = true)
    (heven : p % 2 = 0) (hjobs : s.jobs = [(i, j)]) (hring : j.ring = some r) (hjoin : r.joining = none) (hid : r.id = fRing b)
    (hp : r.decrypt b = none) :
    s.sameBytes (s.received p b fun y => y.ringIn p b) ∧
      (s.received p b fun y => y.ringIn p b).job i = some { j with ring := some (r.add 6 1) } ∧
      ((s.received p b fun y => y.ringIn p b).port p).rxSeq = fSeq b := by
  have hin := s.onlyPorts_inbound p b
  have hrx := (State.port_received_of_inOrder h fun y => y.keepsLinks_ringIn p b).1
  have hcount := State.forwardIn_of_tagFail (hin.jobs.trans hjobs) hring hjoin hid (p / 2) hp
  refine ⟨?_, ?_, hrx⟩
  all_goals rw [State.received_of_inOrder h, State.ringIn_forward _ _ heven, hcount]
  · have hsends := State.sends_afterDelivery ((s.inbound p b).setJob i { j with ring := some (r.add 6 1) }) p b
    exact fun a => (hsends.rest.readByte a).trans (hin.readByte a)
  · have hsends := State.sends_afterDelivery ((s.inbound p b).setJob i { j with ring := some (r.add 6 1) }) p b
    exact (hsends.rest.job i).trans (State.setJob_self _ _ _)

section
variable {s : State} {i : Nat} {j : Job} {r : Ring} {b : Bytes} (hj : s.job i = some j) (hr : j.ring = some r)
  (hnow : fXnum b = j.exchanges % 2 ^ 32)
include hj hr hnow

/-- OPEN opens the exchange in progress on a member (R340). -/
theorem State.ringDeal_open (hty : fType b = 0x10) (hjoin : r.joining = none) :
    ∃ r', State.onlyJob i s { j with ring := some r' } (s.ringDeal i b) ∧ r'.opened = true := by
  rw [State.ringDeal_now hj hr hnow (by simp [hty]) (by simp [hty]), if_pos hty]
  unfold State.openExchange
  rw [hj]
  dsimp only
  rw [Job.member_eq_some.mpr ⟨hr, hjoin⟩]
  dsimp only
  split
  · next hopened => exact ⟨_, State.onlyJob_mapRing hj hr _, hopened⟩
  · obtain ⟨q, hq⟩ := State.onlyJob_mapRing_ringSend hj hr (fun r => { r with opened := true }) 0 { ty := 0x10 } []
    exact ⟨_, hq, rfl⟩

theorem State.ringDeal_lap2 (hty : fType b = 0x14) (hlap : bit (fSamples b) 2 = true) (hslot : fBlock b ≠ r.slot) :
    s.ringDeal i b = s.lap2In i j r b := by
  rw [State.ringDeal_now hj hr hnow (by simp [hty]) (fun _ => ⟨hlap, hslot⟩), if_neg (by simp [hty]), if_pos hty]

theorem State.ringDeal_param (hty : fType b = 0x19) : s.ringDeal i b = s.paramIn i j r b := by
  rw [State.ringDeal_now hj hr hnow (by simp [hty]) (by simp [hty]), if_neg (by simp [hty]), if_neg (by simp [hty]), if_neg (by simp [hty])]

/-- A packet that comes when its block has been dealt with, or after the decision, is late (R345). -/
theorem State.ringDeal_late (hty : fType b = 0x18) (hlate : (s.ownerOf i r (fBlock b) ≠ r.slot ∧ r.sent.contains (fBlock b) = true) ∨
    Table.find r.done (fBlock b) ≠ none ∨ r.decided ≠ none) : s.ringDeal i b = s.setJob i { j with ring := some (r.add 1 1) } := by
  rw [State.ringDeal_reduce hj hr hty hnow]
  unfold State.reduceIn
  extract_lets p k mine
  have hguard : (!decide mine && r.sent.contains k || (Table.find r.done k).isSome || r.decided.isSome) = true := by
    rcases hlate with ⟨howner, hsent⟩ | hdone | hdecided
    · have hsent' : r.sent.contains k = true := hsent
      rw [decide_eq_false (p := mine) howner, hsent']
      rfl
    · have hdone' : (Table.find r.done k).isSome = true := Option.isSome_iff_ne_none.mpr hdone
      rw [hdone', Bool.or_true, Bool.true_or]
    · rw [Option.isSome_iff_ne_none.mpr hdecided, Bool.or_true]
  rw [if_pos hguard]
  exact State.mapRing_of_ring hj hr _

end

/-- Settles O54. A frame of each row is received and dealt with by the member whose ring it names; each type of frame then is the
branch of its reception on that member. -/
theorem ringFrames : Obligations.RingFrames := by
  unfold Obligations.RingFrames
  refine ⟨?_, ?_⟩
  · intro f s b rows x hx hty hport hup horder
    refine ⟨fun hodd hupA hwrapA => ?_, fun i j r heven hjobs hring hjoin hid => ⟨fun p hp => ?_, fun hp => ?_⟩⟩
    · rw [exec_of_mem_ringRows hx, State.ringRow_of_up hport hup hty]
      refine congrArg _ (State.received_congr horder ?_)
      have hA := s.port_inbound_other (p := f.port) (n := f.port - 1) b (by omega)
      exact State.ringIn_back b hodd (by rw [hA, hupA]) (by rw [hA, hwrapA])
    · rw [exec_of_mem_ringRows hx, State.ringRow_of_up hport hup hty]
      refine congrArg _ (State.received_congr horder ?_)
      rw [State.ringIn_forward _ _ heven, ← hty]
      exact State.forwardIn_of_decrypt ((s.onlyPorts_inbound _ _).jobs.trans hjobs) hring hjoin hid _ hp
    · exact ⟨_, (exec_of_mem_ringRows hx s).trans (State.ringRow_of_up hport hup hty),
        State.received_tagFail horder heven hjobs hring hjoin hid hp⟩
  · intro s i j r b hj hr t now k back taken
    refine ⟨fun hty hjoin hnow => ?_, fun c hty hc hslot hearly hfree => ?_, fun c hty hc hslot htaken => ?_, fun c hty hc => ?_,
      fun hty => State.ringDeal_leave hj hr hty, fun hty hlap hslot hnow hjoin hdecided hclosing => ?_,
      fun hty hnow hopened hpresent hdecided hsent hdone => ⟨fun howner => ?_, fun howner => ?_⟩,
      fun hty hnow hlate => State.ringDeal_late hj hr hnow hty hlate, ?_⟩
    · obtain ⟨r', hjob, hopened⟩ := State.ringDeal_open hj hr hnow hty hjoin
      exact ⟨_, r', hjob.job, rfl, hopened, hjob.bytes⟩
    · rw [show t = _ from State.ringDeal_form hj hr hty]
      exact State.formIn_joins hc hslot hj hr hearly (mt (r.occupied_learns b).mp hfree)
    · rw [show t = _ from State.ringDeal_form hj hr hty]
      exact State.formIn_refused hc hslot hj hr ((r.occupied_learns b).mpr htaken)
    · exact ⟨_, (State.ringDeal_refuse hj hr hty).trans (State.refuseIn_of_joiner hj hc), State.setJob_self _ _ _⟩
    · rw [show t = _ from State.ringDeal_lap2 hj hr hnow hty hlap hslot]
      exact State.job_lap2In hj hclosing hr hslot hdecided
    · obtain ⟨r', d, hjob, hfind, hsamples, -, -⟩ := State.finishBlock_absent hj hr (Packet.ofFrame b)
      have ht : t = s.finishBlock i j (Packet.ofFrame b) false := by
        rw [show t = _ from State.ringDeal_reduce hj hr hty hnow, s.reduceIn_absent i j hopened hpresent hdecided (.inl howner) hdone,
          if_pos howner]
      rw [ht]
      exact ⟨hjob.bytes, _, r', d, hjob.job, rfl, hfind, hsamples⟩
    · obtain ⟨q, hjob⟩ := State.onlyJob_sendPacket hj hr (k % r.rings) (Packet.ofFrame b)
      have ht : t = s.sendPacket i (k % r.rings) (Packet.ofFrame b) := by
        rw [show t = _ from State.ringDeal_reduce hj hr hty hnow, s.reduceIn_absent i j hopened hpresent hdecided (.inr hsent) hdone,
          if_neg howner]
      rw [ht]
      exact ⟨_, _, hjob.job, rfl, rfl, hjob.bytes⟩
    · intro hty hnow howner hdecided hfree hunwritten hfirst two body
      obtain ⟨j', r', hjob, hring, hforwarded, hrest, hbytes⟩ := State.paramIn_due hj hr howner hdecided hfree hunwritten hfirst
      rw [show t = _ from State.ringDeal_param hj hr hnow hty]
      refine ⟨⟨j', r', hjob, hring, hforwarded, hrest⟩, fun x hfollow hx hst halt => ⟨fun off len hplace =>
        ⟨fun hwhole _ => ?_, ?_⟩, fun el hd su hplace htwo hel hhd _ => ?_⟩⟩
      · rw [State.readBytes_congr _ _ fun a _ _ => hbytes a, State.paramWritten_whole hwhole,
          State.writeBlock_vec hfollow hx hst halt _ hplace]
        exact State.readBytes_writeBytes _ _ _
      · intro htwo hchanged part at_ _
        rw [State.readBytes_congr _ _ fun a _ _ => hbytes a, State.paramWritten_half htwo hchanged,
          State.writeHalf_vec hfollow hx hst halt _ _ hplace]
        exact State.readBytes_writeBytes _ _ _
      · rw [State.readBytes_congr _ _ fun a _ _ => hbytes a, State.readLE_congr _ _ fun a _ _ => hbytes a,
          State.paramWritten_whole (.inl htwo)]
        exact State.readBytes_writeBlock_head hfollow hx hst halt (s.paramBody i j b) hplace hel hhd

end Sys2Proof.Machine
